-- ==== Sys2Proof/Word.lean ====
section
/-!
DEFINITION. The two word types of TFDS-CORE: the byte of the buffer RAM (R29) and the 32-bit word of the
command port and of its response (R61, R62). All values are unsigned (00_scope.md, notation).
-/

namespace Sys2Proof

/-- A byte of the buffer RAM, and a byte-wide field of a command word (R29, R62). -/
abbrev Byte := BitVec 8

/-- A command word, or the data of a response (R61). -/
abbrev Word := BitVec 32

end Sys2Proof
end

