-- ==== Sys2Proof/Config.lean ====
section
/-!
DEFINITION. What one TFDS-CORE fixes (the parameters of R2) and what the spec leaves open: the content of the buffer RAM at
power-up (R181), and three parameters that no rule of the block reads (R172, D17, D32). An open value is an opaque
constant, so no proof can see what it is.
-/

namespace Sys2Proof.Config

/-- `N`, the capacity of each buffer in bytes (R2, R3). -/
def bufferSize : Nat := 256

/-- `NBUF`, the number of buffers (R2). -/
def bufferCount : Nat := 2

/-- `CRC_POLY`, the reflected polynomial (R2, R106). -/
def crcPoly : BitVec 16 := 0x8408#16

/-- `CRC_TOP`, XORed in for a data bit of 1 (R2, R106). -/
def crcTop : BitVec 16 := 0x8000#16

/-- `POL` as a mask: bit `i` is 1 when signal `i` is active-low (R16). -/
def polarity : BitVec 7 := 0x71#7

/-- The reset value of `CFG`: EMIT, MSB-first emit, LSB-first capture, COUNT, CRC off (R23, R180). -/
def cfgReset : BitVec 5 := 0b00010#5

/-- What the buffer RAM holds at power-up at each flat address: an arbitrary but fixed value (R181, U3).
DESIGN CHOICE of the form, log 6: a free value, safe. -/
opaque powerUpByte : Nat → Byte

/-- `F_TIMER`, the timer's input frequency (R172, D32). No rule reads it (log 7). -/
opaque timerFrequency : Nat

/-- `TICK_DIVISOR`, the timer's divisor; tick rate = `F_TIMER` / `TICK_DIVISOR` (R172, D32). No rule reads it (log 7). -/
opaque tickDivisor : Nat

/-- Which of the two CRC bytes the host puts first on the wire (D17, U8). -/
inductive CrcByteOrder where
  | lowFirst
  | highFirst
  deriving DecidableEq, Repr, Inhabited

/-- `CRC_APPEND_ORDER` (D17, U8). No rule of the block reads it (log 7). -/
opaque crcAppendOrder : CrcByteOrder

end Sys2Proof.Config
end

