-- ==== Sys2Proof/Machine/State.lean ====
section
/-!
DEFINITION. The state of TFDS-CORE (10_state.md section 1), held in the four parts of R1 and the sticky flags, with the input
pins a model must carry (R17) and two fields of the model's own (`inputs`, `responses`). Plain data throughout.
-/

namespace Sys2Proof.Machine

/-- `fsm` (R18): the engine state. Code 3 does not exist, so the type has three values (U4). -/
inductive Fsm where
  | disarmed
  | gap
  | xfer
  deriving DecidableEq, Repr

/-- A buffer of the Double Buffer Store (R29), and the value of `sel` (R20). -/
inductive BufId where
  | buf0
  | buf1
  deriving DecidableEq, Repr

/-- `CFG.DIR` (R23). -/
inductive Dir where
  | emit
  | capture
  deriving DecidableEq, Repr

/-- `CFG.GAP_POLICY` (R23). -/
inductive GapPolicy where
  | count
  | firstOne
  deriving DecidableEq, Repr

/-- The four output signals, ids 0 to 3 (R15). -/
inductive OutSig where
  | mediaSet
  | motorOn
  | ready
  | rwMedia
  deriving DecidableEq, Repr

/-- The three input signals, ids 4 to 6 (R17). -/
inductive InSig where
  | stopMotor
  | scanMedia
  | writeEnable
  deriving DecidableEq, Repr

/-- The seven handshake signals (R80). -/
inductive Signal where
  | out (o : OutSig)
  | inp (i : InSig)
  deriving DecidableEq, Repr

/-- The events of R160 that the block raises. -/
inductive Event where
  | underrun
  | abort
  | cmdRefused
  deriving DecidableEq, Repr

/-- The Signal Line Abstraction: `out[0..3]` (R15) and `inl[4..6]` (R17), logical values, `true` = asserted. -/
structure Signals where
  /-- `out[0]`. -/
  mediaSet : Bool
  /-- `out[1]`. -/
  motorOn : Bool
  /-- `out[2]`. -/
  ready : Bool
  /-- `out[3]`. -/
  rwMedia : Bool
  /-- `inl[4]`, the last polled value. -/
  stopMotor : Bool
  /-- `inl[5]`, the last polled value. -/
  scanMedia : Bool
  /-- `inl[6]`, the last polled value. -/
  writeEnable : Bool
  deriving DecidableEq, Repr

/-- The buffer RAM (R29, R40): what has been written since power-up, by flat address, addresses strictly rising. An unlisted
address has not been written; a read of it gives `Config.powerUpByte` (R181, log 6). -/
abbrev Memory := List Host.Cell

/-- The Double Buffer Store (R20, R21, R29). -/
structure Store where
  /-- `buf[0..1][0..255]`. -/
  ram : Memory
  /-- `sel`, the active buffer. -/
  sel : BufId
  /-- `cur`, the cursor in the active buffer. -/
  cur : BitVec 8
  /-- `refill`: `none` is `NONE`, `some b` names the buffer just vacated. -/
  refill : Option BufId
  deriving DecidableEq, Repr

/-- The CRC-16 Accumulator (R13, R25). -/
structure Crc where
  /-- `crc`. -/
  value : BitVec 16
  /-- `seed`. -/
  seed : BitVec 16
  deriving DecidableEq, Repr

/-- The Bit Clock Engine (R10 to R12, R14, R18, R19, R23, R24, R26, R30). -/
structure Engine where
  /-- `fsm`. -/
  fsm : Fsm
  /-- `ph`, the phase of the next tick: `false` low, `true` high. -/
  ph : Bool
  /-- `bitssent`. -/
  bitssent : BitVec 3
  /-- `cur_byte`. -/
  curByte : Byte
  /-- `gap_cnt`, in ticks. -/
  gapCnt : BitVec 24
  /-- `gap_len`, in ticks. -/
  gapLen : BitVec 24
  /-- `pos`, data bytes completed since `ARM`. -/
  pos : BitVec 32
  /-- `bitcnt`, data bits moved since `ARM`. -/
  bitcnt : BitVec 32
  /-- `side`; no rule of the block reads it. -/
  side : Byte
  /-- `cfg`: bit 0 `DIR`, 1 `EMIT_MSB`, 2 `CAP_MSB`, 3 `GAP_POLICY`, 4 `CRC_EN`. -/
  cfg : BitVec 5
  /-- `data_out`, the physical level of `P_DATA_OUT`. -/
  dataOut : Bool
  /-- `clk_out`, the physical level of `P_CLK_OUT`. -/
  clkOut : Bool
  deriving DecidableEq, Repr

/-- The three sticky flags (R22). -/
structure Flags where
  underrun : Bool
  abort : Bool
  cmderr : Bool
  deriving DecidableEq, Repr

/-- The physical levels the environment drives on the four input pins (R17), `true` = high. -/
structure Pins where
  /-- `P_STOP_MOTOR`. -/
  stopMotor : Bool
  /-- `P_SCAN_MEDIA`. -/
  scanMedia : Bool
  /-- `P_WRITE_EN`. -/
  writeEn : Bool
  /-- `P_DATA_IN`. -/
  dataIn : Bool
  deriving DecidableEq, Repr

/-- What is presented to the block at one instant: the strobes `rst` and `tick` (R69) and a command word (R61), which may
coincide (R47, R180). -/
structure Presented where
  rst : Bool
  tick : Bool
  cmd : Option Word
  deriving DecidableEq, Repr

/-- One entry of the total order of R46: a step of the environment, or an instant at which operations are presented. -/
inductive EnvStep where
  /-- The environment sets the levels of the input pins (R46, R53). -/
  | pins (levels : Pins)
  /-- Strobes and a command word are presented. -/
  | present (p : Presented)
  deriving DecidableEq, Repr

/-- The response to a command: `(err, data)` (R61). -/
structure Response where
  err : Bool
  data : Word
  deriving DecidableEq, Repr

/-- The whole machine. -/
structure State where
  /-- The Signal Line Abstraction. -/
  signals : Signals
  /-- The Double Buffer Store. -/
  store : Store
  /-- The CRC-16 Accumulator. -/
  crc : Crc
  /-- The Bit Clock Engine. -/
  engine : Engine
  /-- The sticky flags. -/
  flags : Flags
  /-- Environment state, no register of the block: the input pins. -/
  pins : Pins
  /-- The model's own: what is still to be presented, in order (log 1). -/
  inputs : List EnvStep
  /-- The model's own: the responses given so far, newest first (log 3). -/
  responses : List Response
  deriving DecidableEq, Repr

/-- Why the machine would stop. Closed and empty: nothing in the block traps, every operation completes in every state
(R118, R160; 93_implementation_defined.md: "fault (none in this block: nothing traps)"). Log 11. -/
inductive Fault where
  deriving DecidableEq, Repr

/-- Why a step would have no meaning. A command the BLOCK refuses is not one: it is a next state with `cmderr` set (R66). -/
inductive Refusal where
  /-- An operation that the model gives no meaning yet; raised only by an arm of `exec`. Safe: the run stops. No arm raises it. -/
  | notModelled (mnemonic : String)
  deriving DecidableEq, Repr

/-- What an operation answers. -/
abbrev Result := Host.Outcome State Fault Refusal

/-- The signal registers after `RESET` (R180): all deasserted. -/
def Signals.reset : Signals :=
  { mediaSet := false, motorOn := false, ready := false, rwMedia := false
    stopMotor := false, scanMedia := false, writeEnable := false }

/-- The accumulator and its seed after `RESET` (R180). -/
def Crc.reset : Crc := { value := 0x0000#16, seed := 0x0000#16 }

/-- The engine after `RESET` (R180). -/
def Engine.reset : Engine :=
  { fsm := .disarmed, ph := false, bitssent := 0#3, curByte := 0x00#8
    gapCnt := 0#24, gapLen := 0#24, pos := 0#32, bitcnt := 0#32, side := 0x00#8
    cfg := Config.cfgReset, dataOut := false, clkOut := false }

/-- The sticky flags after `RESET` (R180). -/
def Flags.reset : Flags := { underrun := false, abort := false, cmderr := false }

/-- The pin levels the model starts from: the handshake inputs at their inactive level, the data line low.
DESIGN CHOICE, log 5: the environment drives them (R17, U16). -/
def Pins.idle : Pins := { stopMotor := true, scanMedia := true, writeEn := true, dataIn := false }

/-- The machine right after power-up and `RESET` (R180, R181): no RAM byte written yet, nothing presented, no response given. -/
def State.reset : State :=
  { signals := Signals.reset
    store := { ram := [], sel := .buf0, cur := 0x00#8, refill := none }
    crc := Crc.reset
    engine := Engine.reset
    flags := Flags.reset
    pins := Pins.idle
    inputs := []
    responses := [] }

end Sys2Proof.Machine
end

