-- ==== Sys2Proof/Machine/Operands.lean ====
section
/-!
DEFINITION. Operand forms and codes: signal ids (R15, R17), buffer ids and RAM addresses (R29, R40), the numeric codes of D2,
the fields of `CFG` (R23), and the wire bit index (R117).
-/

namespace Sys2Proof.Machine

/-- A 1-bit value as a bit vector. -/
abbrev bit (b : Bool) : BitVec 1 := BitVec.ofBool b

/-! ### Signals -/

/-- The id of an output signal (table after R17). -/
def OutSig.id : OutSig → Nat
  | .mediaSet => 0
  | .motorOn => 1
  | .ready => 2
  | .rwMedia => 3

/-- The id of an input signal (table after R17). -/
def InSig.id : InSig → Nat
  | .stopMotor => 4
  | .scanMedia => 5
  | .writeEnable => 6

/-- The id of a signal, 0 to 6. -/
def Signal.id : Signal → Nat
  | .out o => o.id
  | .inp i => i.id

/-- The signal an id byte names (R63): none for 7 to 255. -/
def Signal.ofId (a : Byte) : Option Signal :=
  match a.toNat with
  | 0 => some (.out .mediaSet)
  | 1 => some (.out .motorOn)
  | 2 => some (.out .ready)
  | 3 => some (.out .rwMedia)
  | 4 => some (.inp .stopMotor)
  | 5 => some (.inp .scanMedia)
  | 6 => some (.inp .writeEnable)
  | _ => none

/-- The output signal an id byte names (R63): none for 4 to 255. -/
def OutSig.ofId (a : Byte) : Option OutSig :=
  match Signal.ofId a with
  | some (.out o) => some o
  | _ => none

/-- `POL[i]`: whether a signal is active-low (R16). -/
def Signal.activeLow (g : Signal) : Bool := Config.polarity.getLsbD g.id

/-- The logical value a register of the signal file holds: `out[i]` or `inl[i]`. -/
def Signals.get (r : Signals) : Signal → Bool
  | .out .mediaSet => r.mediaSet
  | .out .motorOn => r.motorOn
  | .out .ready => r.ready
  | .out .rwMedia => r.rwMedia
  | .inp .stopMotor => r.stopMotor
  | .inp .scanMedia => r.scanMedia
  | .inp .writeEnable => r.writeEnable

/-- `out[o] <- v` (R82). -/
def Signals.setOut (r : Signals) (o : OutSig) (v : Bool) : Signals :=
  match o with
  | .mediaSet => { r with mediaSet := v }
  | .motorOn => { r with motorOn := v }
  | .ready => { r with ready := v }
  | .rwMedia => { r with rwMedia := v }

/-- The level of the pin of an input signal. -/
def Pins.ofInput (p : Pins) : InSig → Bool
  | .stopMotor => p.stopMotor
  | .scanMedia => p.scanMedia
  | .writeEnable => p.writeEn

/-- The logical value of an input pin, `pin[i] ^ POL[i]` (R81). -/
def Pins.logical (p : Pins) (i : InSig) : Bool := p.ofInput i ^^ Signal.activeLow (.inp i)

/-- A logical level operand: 0 or 1, none above (R63). -/
def levelOf (c : Byte) : Option Bool :=
  match c.toNat with
  | 0 => some false
  | 1 => some true
  | _ => none

/-! ### Buffers and RAM addresses -/

/-- The other buffer, `~sel`. -/
def BufId.other : BufId → BufId
  | .buf0 => .buf1
  | .buf1 => .buf0

/-- The index of a buffer. -/
def BufId.index : BufId → Nat
  | .buf0 => 0
  | .buf1 => 1

/-- `sel` as one bit. -/
def BufId.bit : BufId → BitVec 1
  | .buf0 => 0#1
  | .buf1 => 1#1

/-- The buffer id byte of a command word. -/
def BufId.toByte : BufId → Byte
  | .buf0 => 0#8
  | .buf1 => 1#8

/-- The buffer an id byte names (R44, R63): none for 2 to 255. -/
def BufId.ofId (a : Byte) : Option BufId :=
  match a.toNat with
  | 0 => some .buf0
  | 1 => some .buf1
  | _ => none

/-- The flat byte address of `buf[b][i]`, `256*b + i` (R29, R40). -/
def ramAddr (b : BufId) (i : BitVec 8) : Nat := Config.bufferSize * b.index + i.toNat

/-! ### Numeric codes (D2) -/

/-- The code of `fsm` (R18). -/
def Fsm.code : Fsm → BitVec 2
  | .disarmed => 0#2
  | .gap => 1#2
  | .xfer => 2#2

/-- The code of `refill` (R21): `NONE` 0, `BUF0` 1, `BUF1` 2. -/
def refillCode : Option BufId → BitVec 2
  | none => 0#2
  | some .buf0 => 1#2
  | some .buf1 => 2#2

/-! ### The fields of `CFG` (R23) -/

/-- `CFG.DIR`, bit 0. -/
def dirOf (cfg : BitVec 5) : Dir := if cfg.getLsbD 0 then .capture else .emit

/-- `CFG.EMIT_MSB`, bit 1. -/
def emitMsbOf (cfg : BitVec 5) : Bool := cfg.getLsbD 1

/-- `CFG.CAP_MSB`, bit 2. -/
def capMsbOf (cfg : BitVec 5) : Bool := cfg.getLsbD 2

/-- `CFG.GAP_POLICY`, bit 3. -/
def gapPolicyOf (cfg : BitVec 5) : GapPolicy := if cfg.getLsbD 3 then .firstOne else .count

/-- `CFG.CRC_EN`, bit 4. -/
def crcEnOf (cfg : BitVec 5) : Bool := cfg.getLsbD 4

/-- `CFG.DIR` of the engine. -/
def Engine.dir (e : Engine) : Dir := dirOf e.cfg

/-- `CFG.GAP_POLICY` of the engine. -/
def Engine.gapPolicy (e : Engine) : GapPolicy := gapPolicyOf e.cfg

/-- `CFG.CRC_EN` of the engine. -/
def Engine.crcEn (e : Engine) : Bool := crcEnOf e.cfg

/-! ### Bits of a byte on the wire -/

/-- `widx(k, msb)`: which bit of a byte bit-cell `k` carries (R117, R43). -/
def widx (k : BitVec 3) (msb : Bool) : Nat := if msb then 7 - k.toNat else k.toNat

/-- `v` with bit `i` replaced by `b`. -/
def setBit (v : Byte) (i : Nat) (b : Bool) : Byte :=
  (v &&& ~~~(1#8 <<< i)) ||| (if b then 1#8 <<< i else 0#8)

end Sys2Proof.Machine
end

