-- ==== Sys2Proof/Machine/Flags.lean ====
section
/-!
DEFINITION. The sticky flags (R22, R160). There are no arithmetic condition codes anywhere in the block (10_state.md section 5,
R142): these three flags and the refill register are all the flags there are.
-/

namespace Sys2Proof.Machine

/-- The code of an event: the index of its flag in `STATUS[22:20]` and in the `CLRERR` mask (R160). -/
def Event.code : Event → Nat
  | .underrun => 0
  | .abort => 1
  | .cmdRefused => 2

/-- The sticky flag of an event. -/
def Flags.get (f : Flags) : Event → Bool
  | .underrun => f.underrun
  | .abort => f.abort
  | .cmdRefused => f.cmderr

/-- Set the flag of an event; a flag already 1 stays 1 (R22). -/
def Flags.set (f : Flags) : Event → Flags
  | .underrun => { f with underrun := true }
  | .abort => { f with abort := true }
  | .cmdRefused => { f with cmderr := true }

/-- Clear the flags that a mask selects: bit 0 `underrun`, bit 1 `abort`, bit 2 `cmderr` (R137). -/
def Flags.clear (f : Flags) (mask : Byte) : Flags :=
  { underrun := f.underrun && !mask.getLsbD 0
    abort := f.abort && !mask.getLsbD 1
    cmderr := f.cmderr && !mask.getLsbD 2 }

end Sys2Proof.Machine
end

