-- ==== Sys2Proof/Machine/Ops.lean ====
section
/-!
DEFINITION. The operations every meaning is written with: access to the buffer RAM (R29, R40), replacing one part of the state,
raising an event and acknowledging it (R160, R170), the response of a command (R61), and its refusal (R66).
-/

namespace Sys2Proof.Machine

/-! ### The buffer RAM -/

/-- What has been written at an address since power-up. -/
def Memory.lookup : Memory → Nat → Option Byte
  | [], _ => none
  | (b, v) :: m, a => if a = b then some v else Memory.lookup m a

/-- `MemRead(addr, 1)`: what the RAM holds (R181). A byte never written holds its power-up value. -/
def Memory.read (m : Memory) (a : Nat) : Byte := (m.lookup a).getD (Config.powerUpByte a)

/-- `MemWrite(addr, 1, v)`, keeping addresses strictly rising. -/
def Memory.write : Memory → Nat → Byte → Memory
  | [], a, v => [(a, v)]
  | (b, w) :: m, a, v =>
    if a < b then (a, v) :: (b, w) :: m
    else if a = b then (a, v) :: m
    else (b, w) :: Memory.write m a v

/-- The addresses of a memory are strictly rising and above `lo` (`none`: no bound yet). -/
def Memory.risingFrom : Option Nat → Memory → Bool
  | _, [] => true
  | none, (b, _) :: m => Memory.risingFrom (some b) m
  | some lo, (b, _) :: m => decide (lo < b) && Memory.risingFrom (some b) m

/-- The canonical form: addresses strictly rising, all of them addresses of the RAM (R40: 0 to 511). -/
def Memory.wf (m : Memory) : Bool :=
  Memory.risingFrom none m && m.all fun cell => decide (cell.1 < Config.bufferCount * Config.bufferSize)

/-! ### Replacing one part of the state -/

/-- Replace the signal registers. -/
def State.withSignals (s : State) (x : Signals) : State := { s with signals := x }

/-- Replace the Double Buffer Store. -/
def State.withStore (s : State) (x : Store) : State := { s with store := x }

/-- Replace the CRC accumulator. -/
def State.withCrc (s : State) (x : Crc) : State := { s with crc := x }

/-- Replace the engine's registers. -/
def State.withEngine (s : State) (x : Engine) : State := { s with engine := x }

/-- Replace the sticky flags. -/
def State.withFlags (s : State) (x : Flags) : State := { s with flags := x }

/-- Replace the levels of the input pins. -/
def State.withPins (s : State) (x : Pins) : State := { s with pins := x }

/-- Replace what is still to be presented. -/
def State.withInputs (s : State) (x : List EnvStep) : State := { s with inputs := x }

/-- Replace the responses given. -/
def State.withResponses (s : State) (x : List Response) : State := { s with responses := x }

/-! ### Events: taking one, and acknowledging it -/

/-- `raise E` (R160, R169): the sticky flag of the event becomes 1. Nothing is saved, no control is transferred, and the
operation that raises it goes on. -/
def State.raise (s : State) (e : Event) : State := s.withFlags (s.flags.set e)

/-- The acknowledgement of events, in the place of a return from one (R170): the flags the mask selects become 0 (R137). -/
def State.acknowledge (s : State) (mask : Byte) : State := s.withFlags (s.flags.clear mask)

/-! ### The response of a command -/

/-- Put a response on the command port (R61). -/
def State.respond (s : State) (r : Response) : State := s.withResponses (r :: s.responses)

/-- `rsp(v)`: the command is accepted, `err` = 0, with `v` as data (00_scope.md, notation). -/
def State.rsp (s : State) (v : Word) : State := s.respond { err := false, data := v }

/-- `refuse` (R66): `cmderr <- 1`, response `(1, 0)`, nothing else. -/
def State.refuse (s : State) : State := (s.raise .cmdRefused).respond { err := true, data := 0#32 }

/-- `fsm` is not `DISARMED` (R18). -/
def State.armed (s : State) : Bool := decide (s.engine.fsm ≠ .disarmed)

/-- The engine owns `crc`: armed with `CFG.CRC_EN` = 1 (R68, R107). -/
def State.crcOwned (s : State) : Bool := s.armed && s.engine.crcEn

end Sys2Proof.Machine
end

