-- ==== Sys2Proof/Machine/Views.lean ====
section
/-!
DEFINITION. The views with no storage of their own: `STATUS` (R27), `SIGS` (R28, R84), the `RDCFG` word (R136), and the output
pins (R15, R30, R81).
-/

namespace Sys2Proof.Machine

/-- `sigs_word()` (R28, R84): 22 zero bits, `clk_out`, `data_out`, 0, `inl[6..4]`, `out[3..0]`. -/
def State.sigsWord (s : State) : Word :=
  0#22 ++ bit s.engine.clkOut ++ bit s.engine.dataOut ++ 0#1
    ++ bit s.signals.writeEnable ++ bit s.signals.scanMedia ++ bit s.signals.stopMotor
    ++ bit s.signals.rwMedia ++ bit s.signals.ready ++ bit s.signals.motorOn ++ bit s.signals.mediaSet

/-- `status_word()` (R27). -/
def State.statusWord (s : State) : Word :=
  s.engine.curByte ++ 0#1 ++ bit s.flags.cmderr ++ bit s.flags.abort ++ bit s.flags.underrun
    ++ 0#1 ++ s.engine.bitssent ++ s.store.cur
    ++ 0#1 ++ refillCode s.store.refill ++ s.store.sel.bit ++ bit s.engine.ph ++ bit s.armed ++ s.engine.fsm.code

/-- The word `RDCFG` returns: `seed`, `side`, three zero bits, `cfg` (R136). -/
def State.cfgWord (s : State) : Word := s.crc.seed ++ s.engine.side ++ 0#3 ++ s.engine.cfg

/-- The level of a handshake output pin, `P_OUT[i] = out[i] ^ POL[i]` (R15, R81). -/
def State.pinOut (s : State) (o : OutSig) : Bool := s.signals.get (.out o) ^^ Signal.activeLow (.out o)

/-- The level of `P_DATA_OUT` (R30). -/
def State.pinDataOut (s : State) : Bool := s.engine.dataOut

/-- The level of `P_CLK_OUT` (R30). -/
def State.pinClkOut (s : State) : Bool := s.engine.clkOut

end Sys2Proof.Machine
end

