-- ==== Sys2Proof/Machine/CrcUnit.lean ====
section
/-!
DEFINITION. The CRC-16 Accumulator (42_crc.md): the function `crc_update` and the commands `CRCRST`, `CRCUPD`, `WRSEED`, `RDCRC`.
-/

namespace Sys2Proof.Machine

/-- One step of the recurrence of R106 with data bit `d`. -/
def crcStep (c : BitVec 16) (d : Bool) : BitVec 16 :=
  let out := c.getLsbD 0
  let c := c >>> 1
  let c := if out then c ^^^ Config.crcPoly else c
  if d then c ^^^ Config.crcTop else c

/-- `crc_update(c, byte)` (R106): eight steps, bit 0 of the byte first. -/
def crcUpdate (c : BitVec 16) (byte : Byte) : BitVec 16 :=
  [0, 1, 2, 3, 4, 5, 6, 7].foldl (fun c i => crcStep c (byte.getLsbD i)) c

/-- `crc <- seed`, done by `CRCRST` (R107) and by `ARM` (R127). -/
def State.crcReload (s : State) : State := s.withCrc { s.crc with value := s.crc.seed }

/-- `crc <- crc_update(crc, byte)` (R108, R123). -/
def State.crcFeed (s : State) (byte : Byte) : State :=
  s.withCrc { s.crc with value := crcUpdate s.crc.value byte }

/-- `CRCRST` (R107). Refused while the engine owns `crc`. -/
def execCrcrst (s : State) : Result :=
  if s.crcOwned then .next s.refuse else .next (s.crcReload.rsp 0#32)

/-- `CRCUPD c` (R108). Refused while the engine owns `crc`; the response is the new value. -/
def execCrcupd (c : Byte) (s : State) : Result :=
  if s.crcOwned then .next s.refuse
  else
    let s := s.crcFeed c
    .next (s.rsp (s.crc.value.setWidth 32))

/-- `WRSEED imm16` (R109). Refused while armed; `crc` itself does not change. -/
def execWrseed (imm16 : BitVec 16) (s : State) : Result :=
  if s.armed then .next s.refuse else .next ((s.withCrc { s.crc with seed := imm16 }).rsp 0#32)

/-- `RDCRC` (R110). -/
def execRdcrc (s : State) : Result := .next (s.rsp (s.crc.value.setWidth 32))

end Sys2Proof.Machine
end

