-- ==== Sys2Proof/Machine/DoubleBuffer.lean ====
section
/-!
DEFINITION. The Double Buffer Store (41_double_buffer.md): the procedures `advance`, `push`, `pull` of the engine port, and the
commands `PUSH`, `PULL`, `CONSUME`, `BUFWR`, `BUFRD`.
-/

namespace Sys2Proof.Machine

/-- `buf[b][i]` (R29). -/
def State.bufByte (s : State) (b : BufId) (i : BitVec 8) : Byte := s.store.ram.read (ramAddr b i)

/-- `buf[b][i] <- v` (R29). -/
def State.setBufByte (s : State) (b : BufId) (i : BitVec 8) (v : Byte) : State :=
  s.withStore { s.store with ram := s.store.ram.write (ramAddr b i) v }

/-- `advance()` (R92): the cursor step; at its wrap the selector flips and a refill request is posted for the buffer just
vacated, raising `UNDERRUN` when the earlier request is still pending. -/
def State.advance (s : State) : State :=
  let s := s.withStore { s.store with cur := s.store.cur + 1#8 }
  if s.store.cur = 0#8 then
    let vacated := s.store.sel
    let s := s.withStore { s.store with sel := vacated.other }
    let s := if s.store.refill ≠ none then s.raise .underrun else s
    s.withStore { s.store with refill := some vacated }
  else s

/-- `push(v)` (R93): write at the cursor of the active buffer, then advance. -/
def State.push (s : State) (v : Byte) : State := (s.setBufByte s.store.sel s.store.cur v).advance

/-- `pull()` (R94): read at the cursor of the active buffer, then advance. -/
def State.pull (s : State) : Byte × State := (s.bufByte s.store.sel s.store.cur, s.advance)

/-- `PUSH c` (R95). Refused while armed. -/
def execPush (c : Byte) (s : State) : Result :=
  if s.armed then .next s.refuse else .next ((s.push c).rsp 0#32)

/-- `PULL` (R96). Refused while armed. -/
def execPull (s : State) : Result :=
  if s.armed then .next s.refuse
  else
    let (v, s) := s.pull
    .next (s.rsp (v.setWidth 32))

/-- `CONSUME` (R97, R50): read and clear the refill request in one step. -/
def execConsume (s : State) : Result :=
  let r := s.store.refill
  let s := s.withStore { s.store with refill := none }
  .next (s.rsp ((refillCode r).setWidth 32))

/-- `BUFWR a, b, c` (R98). A buffer id above 1 is refused; the active buffer is not checked. -/
def execBufwr (a b c : Byte) (s : State) : Result :=
  match BufId.ofId a with
  | some d => .next ((s.setBufByte d b c).rsp 0#32)
  | none => .next s.refuse

/-- `BUFRD a, b` (R99). A buffer id above 1 is refused. -/
def execBufrd (a b : Byte) (s : State) : Result :=
  match BufId.ofId a with
  | some d => .next (s.rsp ((s.bufByte d b).setWidth 32))
  | none => .next s.refuse

end Sys2Proof.Machine
end

