-- ==== Sys2Proof/Machine/BitClock.lean ====
section
/-!
DEFINITION. The Bit Clock Engine (43_bit_clock_engine.md): the event `TICK` with its procedures (R120 to R126), the session
commands `ARM` and `DISARM`, and the configuration and read commands of the engine.
-/

namespace Sys2Proof.Machine

/-! ### TICK -/

/-- `fsm <- f`. -/
def State.setFsm (s : State) (f : Fsm) : State := s.withEngine { s.engine with fsm := f }

/-- `ph <- ~ph` (R19, R120). -/
def State.togglePhase (s : State) : State := s.withEngine { s.engine with ph := !s.engine.ph }

/-- `clk_out <- ph` (R120): the phase of the tick being processed. -/
def State.strobeClock (s : State) : State := s.withEngine { s.engine with clkOut := s.engine.ph }

/-- `gap_count()` (R121): count down; when emitting, toggle the data line. -/
def State.gapCount (s : State) : State :=
  let s := s.withEngine { s.engine with gapCnt := s.engine.gapCnt - 1#24 }
  match s.engine.dir with
  | .emit => s.withEngine { s.engine with dataOut := !s.engine.dataOut }
  | .capture => s

/-- `gap_first_one(low)` (R122): a 1 sampled in a low-phase tick ends the gap and is not stored. -/
def State.gapFirstOne (s : State) (low : Bool) : State :=
  if low && s.pins.dataIn then s.setFsm .xfer else s

/-- `byte_done(completed)` (R123). -/
def State.byteDone (s : State) (completed : Byte) : State :=
  let s := s.withEngine { s.engine with bitssent := 0#3 }
  let s := if s.engine.crcEn then s.crcFeed completed else s
  s.withEngine { s.engine with pos := s.engine.pos + 1#32 }

/-- `bit_emit()` (R124): drive one bit; with the eighth, complete the byte and fetch the next. -/
def State.bitEmit (s : State) : State :=
  let k := s.engine.bitssent
  let s := s.withEngine
    { s.engine with
      dataOut := s.engine.curByte.getLsbD (widx k (emitMsbOf s.engine.cfg))
      bitcnt := s.engine.bitcnt + 1#32 }
  if k = 7#3 then
    let s := s.byteDone s.engine.curByte
    let (v, s) := s.pull
    s.withEngine { s.engine with curByte := v }
  else s.withEngine { s.engine with bitssent := k + 1#3 }

/-- `bit_capture()` (R125): sample one bit; with the eighth, complete the byte and store it. -/
def State.bitCapture (s : State) : State :=
  let k := s.engine.bitssent
  let s := s.withEngine
    { s.engine with
      curByte := setBit s.engine.curByte (widx k (capMsbOf s.engine.cfg)) s.pins.dataIn
      bitcnt := s.engine.bitcnt + 1#32 }
  if k = 7#3 then
    let completed := s.engine.curByte
    let s := (s.byteDone completed).push completed
    s.withEngine { s.engine with curByte := 0x00#8 }
  else s.withEngine { s.engine with bitssent := k + 1#3 }

/-- The data action of a Transferring tick (R120): one bit in the low phase, nothing in the high phase (R126). -/
def State.transfer (s : State) (low : Bool) : State :=
  if low then
    match s.engine.dir with
    | .emit => s.bitEmit
    | .capture => s.bitCapture
  else s

/-- A tick processed in state `GAP` (R120): FIRST_ONE in capture, else the countdown; a tick that finds the counter at 0 is
already a Transferring tick. -/
def State.gapTick (s : State) (low : Bool) : State :=
  if s.engine.dir = .capture ∧ s.engine.gapPolicy = .firstOne then s.gapFirstOne low
  else if s.engine.gapCnt ≠ 0#24 then s.gapCount
  else (s.setFsm .xfer).transfer low

/-- `TICK` (R120). Disarmed, nothing at all changes. -/
def State.tick (s : State) : State :=
  let low := !s.engine.ph
  match s.engine.fsm with
  | .disarmed => s
  | .gap => (s.strobeClock.gapTick low).togglePhase
  | .xfer => (s.strobeClock.transfer low).togglePhase

/-- `TICK`: accepted in every state, no response (R69, R120). -/
def execTick (s : State) : Result := .next s.tick

/-! ### Sessions -/

/-- The state a session starts from (R127): everything `ARM` writes but `fsm`. In EMIT direction the first byte is fetched. -/
def State.startSession (s : State) : State :=
  let s := s.withStore { s.store with sel := .buf0, cur := 0#8, refill := none }
  let s := s.withEngine
    { s.engine with
      bitssent := 0#3, ph := false, gapCnt := s.engine.gapLen
      pos := 0#32, bitcnt := 0#32, dataOut := false, clkOut := false }
  let s := s.crcReload
  match s.engine.dir with
  | .emit =>
    let (v, s) := s.pull
    s.withEngine { s.engine with curByte := v }
  | .capture => s.withEngine { s.engine with curByte := 0x00#8 }

/-- `ARM` (R127). Refused while armed. -/
def execArm (s : State) : Result :=
  if s.armed then .next s.refuse else .next ((s.startSession.setFsm .gap).rsp 0#32)

/-- The effect of `DISARM` while armed (R128): `ABORT` when stopped in mid-byte; the byte in flight is discarded. -/
def State.endSession (s : State) : State :=
  let s := if s.engine.fsm = .xfer ∧ s.engine.bitssent ≠ 0#3 then s.raise .abort else s
  s.withEngine { s.engine with fsm := .disarmed, bitssent := 0#3, curByte := 0x00#8 }

/-- `DISARM` (R128): legal in every state, idempotent. -/
def execDisarm (s : State) : Result :=
  .next ((if s.armed then s.endSession else s).rsp 0#32)

/-! ### Configuration -/

/-- `WRCFG c` (R129). Refused while armed, or when `c[7:5]` is not 0. -/
def execWrcfg (c : Byte) (s : State) : Result :=
  if c.extractLsb' 5 3 ≠ 0#3 ∨ s.armed = true then .next s.refuse
  else .next ((s.withEngine { s.engine with cfg := c.extractLsb' 0 5 }).rsp 0#32)

/-- `WRGAP imm24` (R130). Refused while armed; `gap_cnt` does not change. -/
def execWrgap (imm24 : BitVec 24) (s : State) : Result :=
  if s.armed then .next s.refuse
  else .next ((s.withEngine { s.engine with gapLen := imm24 }).rsp 0#32)

/-- `WRSIDE c` (R131): legal in every state. -/
def execWrside (c : Byte) (s : State) : Result :=
  .next ((s.withEngine { s.engine with side := c }).rsp 0#32)

/-- `CLRERR c` (R137). Refused when `c[7:3]` is not 0. -/
def execClrerr (c : Byte) (s : State) : Result :=
  if c.extractLsb' 3 5 ≠ 0#5 then .next s.refuse else .next ((s.acknowledge c).rsp 0#32)

/-! ### Reads -/

/-- `RDSTATUS` (R132). -/
def execRdstatus (s : State) : Result := .next (s.rsp s.statusWord)

/-- `RDPOS` (R133). -/
def execRdpos (s : State) : Result := .next (s.rsp s.engine.pos)

/-- `RDBITS` (R134). -/
def execRdbits (s : State) : Result := .next (s.rsp s.engine.bitcnt)

/-- `RDGAP` (R135). -/
def execRdgap (s : State) : Result := .next (s.rsp (s.engine.gapCnt.setWidth 32))

/-- `RDCFG` (R136). -/
def execRdcfg (s : State) : Result := .next (s.rsp s.cfgWord)

/-- `RDGAPLEN` (R138). -/
def execRdgaplen (s : State) : Result := .next (s.rsp (s.engine.gapLen.setWidth 32))

end Sys2Proof.Machine
end

