-- ==== Sys2Proof/Machine/Reset.lean ====
section
/-!
DEFINITION. The event `RESET` (70_reset_and_hazards.md R180, R181).
-/

namespace Sys2Proof.Machine

/-- Every register at its reset value (R180); the RAM keeps what it holds (R181). The input pins, what is still to be presented
and the responses already given are not the block's, and stay (log 8). -/
def State.resetBlock (s : State) : State :=
  { s with
    signals := Signals.reset
    store := { ram := s.store.ram, sel := .buf0, cur := 0x00#8, refill := none }
    crc := Crc.reset
    engine := Engine.reset
    flags := Flags.reset }

/-- `RESET` (R180): legal in every state, no response, no `ABORT`. -/
def execReset (s : State) : Result := .next s.resetBlock

end Sys2Proof.Machine
end

