-- ==== Sys2Proof/Machine/SignalLines.lean ====
section
/-!
DEFINITION. The Signal Line Abstraction (40_signal_lines.md): `SETSIG`, `RDSIG`, `RDSIGS`, `POLL`.
-/

namespace Sys2Proof.Machine

/-- The latches after one sample of the three handshake input pins (R85). -/
def Signals.latch (r : Signals) (p : Pins) : Signals :=
  { r with
    stopMotor := p.logical .stopMotor
    scanMedia := p.logical .scanMedia
    writeEnable := p.logical .writeEnable }

/-- `SETSIG a, c` (R82). An id that names no output signal, or a level above 1, is refused. -/
def execSetsig (a c : Byte) (s : State) : Result :=
  match OutSig.ofId a, levelOf c with
  | some o, some v => .next ((s.withSignals (s.signals.setOut o v)).rsp 0#32)
  | _, _ => .next s.refuse

/-- `RDSIG a` (R83). An id that names no signal is refused. -/
def execRdsig (a : Byte) (s : State) : Result :=
  match Signal.ofId a with
  | some g => .next (s.rsp ((bit (s.signals.get g)).setWidth 32))
  | none => .next s.refuse

/-- `RDSIGS` (R84). -/
def execRdsigs (s : State) : Result := .next (s.rsp s.sigsWord)

/-- `POLL` (R85): all three pins from one sample, then the record after the update. -/
def execPoll (s : State) : Result :=
  let s := s.withSignals (s.signals.latch s.pins)
  .next (s.rsp s.sigsWord)

end Sys2Proof.Machine
end

