-- ==== Sys2Proof/Syntax.lean ====
section
/-!
DEFINITION. The 27 operations of TFDS-CORE command set 1 (R60, R64, R69), one constructor per row of
spec/opcode_table.json, in the table's order. An operand is the field of the command word it is written in (R62, R63):
its legal range is `Instr.wf` (WellFormed.lean), and the meaning refuses a value outside it, as the operation's rule says.
-/

namespace Sys2Proof

/-- An operation of the block: a command (R64) or an event (R69). -/
inductive Instr where
  /-- `SETSIG a, c`: set output signal `a` to the logical state `c` (R82). -/
  | setsig (a c : Byte)
  /-- `RDSIG a`: read the logical state of signal `a` (R83). -/
  | rdsig (a : Byte)
  /-- `POLL`: latch the three input signals (R85). -/
  | poll
  /-- `RDSIGS`: read all seven signals and the two lines (R84). -/
  | rdsigs
  /-- `PUSH c`: write a byte at the cursor and advance (R95). -/
  | push (c : Byte)
  /-- `PULL`: read the byte at the cursor and advance (R96). -/
  | pull
  /-- `CONSUME`: read and clear the refill request (R97). -/
  | consume
  /-- `BUFWR a, b, c`: write byte `c` at buffer `a`, index `b` (R98). -/
  | bufwr (a b c : Byte)
  /-- `BUFRD a, b`: read the byte at buffer `a`, index `b` (R99). -/
  | bufrd (a b : Byte)
  /-- `CRCRST`: load the accumulator from the seed (R107). -/
  | crcrst
  /-- `CRCUPD c`: feed byte `c` to the accumulator (R108). -/
  | crcupd (c : Byte)
  /-- `WRSEED imm16`: write the seed (R109). -/
  | wrseed (imm16 : BitVec 16)
  /-- `RDCRC`: read the accumulator (R110). -/
  | rdcrc
  /-- `ARM`: start a session (R127). -/
  | arm
  /-- `DISARM`: end a session (R128). -/
  | disarm
  /-- `WRCFG c`: write the configuration register (R129). -/
  | wrcfg (c : Byte)
  /-- `WRGAP imm24`: write the gap length in ticks (R130). -/
  | wrgap (imm24 : BitVec 24)
  /-- `WRSIDE c`: write the side selector (R131). -/
  | wrside (c : Byte)
  /-- `RDSTATUS`: read the status view (R132). -/
  | rdstatus
  /-- `RDPOS`: read the byte counter (R133). -/
  | rdpos
  /-- `RDBITS`: read the bit counter (R134). -/
  | rdbits
  /-- `RDGAP`: read the gap counter (R135). -/
  | rdgap
  /-- `RDCFG`: read the configuration (R136). -/
  | rdcfg
  /-- `CLRERR c`: clear the sticky flags that the mask `c` selects (R137). -/
  | clrerr (c : Byte)
  /-- `RDGAPLEN`: read the configured gap length (R138). -/
  | rdgaplen
  /-- `TICK`: one firing of the timer (R120). -/
  | tick
  /-- `RESET`: a strobe on `rst` (R180). -/
  | reset
  deriving DecidableEq, Repr

end Sys2Proof
end

