-- ==== Sys2Proof/Machine/Dispatch.lean ====
section
/-! DEFINITION. The dispatch: one arm per operation of spec/opcode_table.json, each one call of its meaning. -/

namespace Sys2Proof.Machine

def exec (i : Instr) (s : State) : Host.Outcome State Fault Refusal :=
  match i with
  | .setsig a c => Sys2Proof.Machine.execSetsig a c s
  | .rdsig a => Sys2Proof.Machine.execRdsig a s
  | .poll => Sys2Proof.Machine.execPoll s
  | .rdsigs => Sys2Proof.Machine.execRdsigs s
  | .push c => Sys2Proof.Machine.execPush c s
  | .pull => Sys2Proof.Machine.execPull s
  | .consume => Sys2Proof.Machine.execConsume s
  | .bufwr a b c => Sys2Proof.Machine.execBufwr a b c s
  | .bufrd a b => Sys2Proof.Machine.execBufrd a b s
  | .crcrst => Sys2Proof.Machine.execCrcrst s
  | .crcupd c => Sys2Proof.Machine.execCrcupd c s
  | .wrseed imm16 => Sys2Proof.Machine.execWrseed imm16 s
  | .rdcrc => Sys2Proof.Machine.execRdcrc s
  | .arm => Sys2Proof.Machine.execArm s
  | .disarm => Sys2Proof.Machine.execDisarm s
  | .wrcfg c => Sys2Proof.Machine.execWrcfg c s
  | .wrgap imm24 => Sys2Proof.Machine.execWrgap imm24 s
  | .wrside c => Sys2Proof.Machine.execWrside c s
  | .rdstatus => Sys2Proof.Machine.execRdstatus s
  | .rdpos => Sys2Proof.Machine.execRdpos s
  | .rdbits => Sys2Proof.Machine.execRdbits s
  | .rdgap => Sys2Proof.Machine.execRdgap s
  | .rdcfg => Sys2Proof.Machine.execRdcfg s
  | .clrerr c => Sys2Proof.Machine.execClrerr c s
  | .rdgaplen => Sys2Proof.Machine.execRdgaplen s
  | .tick => Sys2Proof.Machine.execTick s
  | .reset => Sys2Proof.Machine.execReset s

end Sys2Proof.Machine
end

