-- ==== Sys2Proof/WellFormed.lean ====
section
/-!
DEFINITION. Which operand values an operation admits (R63; the extra condition and the masks of R64). A word whose operand is
outside its range matches no row of the opcode table (R65).
-/

namespace Sys2Proof

/-- Operand ranges of R63: `SETSIG` an output signal id 0..3 and a level 0..1, `RDSIG` a signal id 0..6,
`BUFWR` and `BUFRD` a buffer id 0..1, `WRCFG` five bits, `CLRERR` three bits. Every other operand uses its whole field. -/
def Instr.wf : Instr → Bool
  | .setsig a c => decide (a.toNat ≤ 3) && decide (c.toNat ≤ 1)
  | .rdsig a => decide (a.toNat ≤ 6)
  | .poll => true
  | .rdsigs => true
  | .push _ => true
  | .pull => true
  | .consume => true
  | .bufwr a _ _ => decide (a.toNat ≤ 1)
  | .bufrd a _ => decide (a.toNat ≤ 1)
  | .crcrst => true
  | .crcupd _ => true
  | .wrseed _ => true
  | .rdcrc => true
  | .arm => true
  | .disarm => true
  | .wrcfg c => decide (c.toNat < 32)
  | .wrgap _ => true
  | .wrside _ => true
  | .rdstatus => true
  | .rdpos => true
  | .rdbits => true
  | .rdgap => true
  | .rdcfg => true
  | .clrerr c => decide (c.toNat < 8)
  | .rdgaplen => true
  | .tick => true
  | .reset => true

end Sys2Proof
end

