-- ==== Sys2Proof/Decode.lean ====
section
/-!
DEFINITION. From what arrives at a port to an operation, and back (30_encoding.md R62 to R70). Decoding is a pure function of
the word (R70); legality in the present state is checked by the meaning (R68).
-/

namespace Sys2Proof

/-- How an operation is encoded: an event is a strobe on a wire of its own (R69), a command is a 32-bit word (R62). -/
inductive Encoded where
  /-- A strobe on the 1-bit input `tick`. -/
  | tickStrobe
  /-- A strobe on the 1-bit input `rst`. -/
  | rstStrobe
  /-- A word on the command port. -/
  | word (w : Word)
  deriving DecidableEq, Repr

/-! ### The fields of a command word (R62) -/

/-- `op`, bits 31:24. -/
def opField (w : Word) : Byte := w.extractLsb' 24 8

/-- `a`, bits 23:16. -/
def aField (w : Word) : Byte := w.extractLsb' 16 8

/-- `b`, bits 15:8. -/
def bField (w : Word) : Byte := w.extractLsb' 8 8

/-- `c`, bits 7:0. -/
def cField (w : Word) : Byte := w.extractLsb' 0 8

/-- `imm16`, bits 15:0. -/
def imm16Field (w : Word) : BitVec 16 := w.extractLsb' 0 16

/-- `imm24`, bits 23:0. -/
def imm24Field (w : Word) : BitVec 24 := w.extractLsb' 0 24

/-! ### The eight formats (R62): each checks the fields it does not use (R67) -/

/-- Format Z uses nothing: `CMD[23:0]` must be 0. -/
def formatZ (w : Word) (i : Instr) : Option Instr :=
  if imm24Field w = 0#24 then some i else none

/-- Format A uses `a`: `b` and `c` must be 0. -/
def formatA (w : Word) (f : Byte → Instr) : Option Instr :=
  if bField w = 0#8 ∧ cField w = 0#8 then some (f (aField w)) else none

/-- Format AC uses `a` and `c`: `b` must be 0. -/
def formatAC (w : Word) (f : Byte → Byte → Instr) : Option Instr :=
  if bField w = 0#8 then some (f (aField w) (cField w)) else none

/-- Format C uses `c`: `a` and `b` must be 0. -/
def formatC (w : Word) (f : Byte → Instr) : Option Instr :=
  if aField w = 0#8 ∧ bField w = 0#8 then some (f (cField w)) else none

/-- Format AB uses `a` and `b`: `c` must be 0. -/
def formatAB (w : Word) (f : Byte → Byte → Instr) : Option Instr :=
  if cField w = 0#8 then some (f (aField w) (bField w)) else none

/-- Format ABC uses every field. -/
def formatABC (w : Word) (f : Byte → Byte → Byte → Instr) : Option Instr :=
  some (f (aField w) (bField w) (cField w))

/-- Format I16 uses `imm16`: `a` must be 0. -/
def formatI16 (w : Word) (f : BitVec 16 → Instr) : Option Instr :=
  if aField w = 0#8 then some (f (imm16Field w)) else none

/-- Format I24 uses `imm24`. -/
def formatI24 (w : Word) (f : BitVec 24 → Instr) : Option Instr :=
  some (f (imm24Field w))

/-- The operation that the opcode byte and the format of a word give (R62, R64), before the operand ranges of R63 are checked. -/
def decodeFormat (w : Word) : Option Instr :=
  match opField w with
  | 0x10#8 => formatAC w .setsig
  | 0x11#8 => formatA w .rdsig
  | 0x12#8 => formatZ w .poll
  | 0x13#8 => formatZ w .rdsigs
  | 0x20#8 => formatC w .push
  | 0x21#8 => formatZ w .pull
  | 0x22#8 => formatZ w .consume
  | 0x23#8 => formatABC w .bufwr
  | 0x24#8 => formatAB w .bufrd
  | 0x30#8 => formatZ w .crcrst
  | 0x31#8 => formatC w .crcupd
  | 0x32#8 => formatI16 w .wrseed
  | 0x33#8 => formatZ w .rdcrc
  | 0x40#8 => formatZ w .arm
  | 0x41#8 => formatZ w .disarm
  | 0x42#8 => formatC w .wrcfg
  | 0x43#8 => formatI24 w .wrgap
  | 0x44#8 => formatC w .wrside
  | 0x45#8 => formatZ w .rdstatus
  | 0x46#8 => formatZ w .rdpos
  | 0x47#8 => formatZ w .rdbits
  | 0x48#8 => formatZ w .rdgap
  | 0x49#8 => formatZ w .rdcfg
  | 0x4A#8 => formatC w .clrerr
  | 0x4B#8 => formatZ w .rdgaplen
  | _ => none

/-- Decode a command word: `none` exactly for the words of R65, which match no row of the opcode table. -/
def decodeWord (w : Word) : Option Instr :=
  (decodeFormat w).filter Instr.wf

/-- Decode what arrives at a port: a strobe is its event (R69), a word goes through `decodeWord`. -/
def decode : Encoded → Option Instr
  | .tickStrobe => some .tick
  | .rstStrobe => some .reset
  | .word w => decodeWord w

/-! ### The encoder, written from the same table -/

/-- A command word from its four byte fields, `op` the highest (R62). -/
def packFields (op a b c : Byte) : Word := op ++ a ++ b ++ c

/-- A word of format I16: `op`, `a` = 0, `imm16` (R62). -/
def packImm16 (op : Byte) (imm16 : BitVec 16) : Word := op ++ 0#8 ++ imm16

/-- A word of format I24: `op`, `imm24` (R62). -/
def packImm24 (op : Byte) (imm24 : BitVec 24) : Word := op ++ imm24

/-- The encoding of an operation (R64, R69). For an operand outside its range (`Instr.wf` false) it is the word that carries that
value in its field, which decodes to nothing (R65). -/
def encode : Instr → Encoded
  | .setsig a c => .word (packFields 0x10#8 a 0#8 c)
  | .rdsig a => .word (packFields 0x11#8 a 0#8 0#8)
  | .poll => .word (packFields 0x12#8 0#8 0#8 0#8)
  | .rdsigs => .word (packFields 0x13#8 0#8 0#8 0#8)
  | .push c => .word (packFields 0x20#8 0#8 0#8 c)
  | .pull => .word (packFields 0x21#8 0#8 0#8 0#8)
  | .consume => .word (packFields 0x22#8 0#8 0#8 0#8)
  | .bufwr a b c => .word (packFields 0x23#8 a b c)
  | .bufrd a b => .word (packFields 0x24#8 a b 0#8)
  | .crcrst => .word (packFields 0x30#8 0#8 0#8 0#8)
  | .crcupd c => .word (packFields 0x31#8 0#8 0#8 c)
  | .wrseed imm16 => .word (packImm16 0x32#8 imm16)
  | .rdcrc => .word (packFields 0x33#8 0#8 0#8 0#8)
  | .arm => .word (packFields 0x40#8 0#8 0#8 0#8)
  | .disarm => .word (packFields 0x41#8 0#8 0#8 0#8)
  | .wrcfg c => .word (packFields 0x42#8 0#8 0#8 c)
  | .wrgap imm24 => .word (packImm24 0x43#8 imm24)
  | .wrside c => .word (packFields 0x44#8 0#8 0#8 c)
  | .rdstatus => .word (packFields 0x45#8 0#8 0#8 0#8)
  | .rdpos => .word (packFields 0x46#8 0#8 0#8 0#8)
  | .rdbits => .word (packFields 0x47#8 0#8 0#8 0#8)
  | .rdgap => .word (packFields 0x48#8 0#8 0#8 0#8)
  | .rdcfg => .word (packFields 0x49#8 0#8 0#8 0#8)
  | .clrerr c => .word (packFields 0x4A#8 0#8 0#8 c)
  | .rdgaplen => .word (packFields 0x4B#8 0#8 0#8 0#8)
  | .tick => .tickStrobe
  | .reset => .rstStrobe

/-! ### The rows of the opcode table (R64), as match and mask -/

/-- The match and mask of a command's row in the table of R64. An event has none (R69). -/
def Instr.matchMask : Instr → Option (Word × Word)
  | .setsig _ _ => some (0x10000000#32, 0xFFFCFFFE#32)
  | .rdsig _ => some (0x11000000#32, 0xFFF8FFFF#32)
  | .poll => some (0x12000000#32, 0xFFFFFFFF#32)
  | .rdsigs => some (0x13000000#32, 0xFFFFFFFF#32)
  | .push _ => some (0x20000000#32, 0xFFFFFF00#32)
  | .pull => some (0x21000000#32, 0xFFFFFFFF#32)
  | .consume => some (0x22000000#32, 0xFFFFFFFF#32)
  | .bufwr _ _ _ => some (0x23000000#32, 0xFFFE0000#32)
  | .bufrd _ _ => some (0x24000000#32, 0xFFFE00FF#32)
  | .crcrst => some (0x30000000#32, 0xFFFFFFFF#32)
  | .crcupd _ => some (0x31000000#32, 0xFFFFFF00#32)
  | .wrseed _ => some (0x32000000#32, 0xFFFF0000#32)
  | .rdcrc => some (0x33000000#32, 0xFFFFFFFF#32)
  | .arm => some (0x40000000#32, 0xFFFFFFFF#32)
  | .disarm => some (0x41000000#32, 0xFFFFFFFF#32)
  | .wrcfg _ => some (0x42000000#32, 0xFFFFFFE0#32)
  | .wrgap _ => some (0x43000000#32, 0xFF000000#32)
  | .wrside _ => some (0x44000000#32, 0xFFFFFF00#32)
  | .rdstatus => some (0x45000000#32, 0xFFFFFFFF#32)
  | .rdpos => some (0x46000000#32, 0xFFFFFFFF#32)
  | .rdbits => some (0x47000000#32, 0xFFFFFFFF#32)
  | .rdgap => some (0x48000000#32, 0xFFFFFFFF#32)
  | .rdcfg => some (0x49000000#32, 0xFFFFFFFF#32)
  | .clrerr _ => some (0x4A000000#32, 0xFFFFFFF8#32)
  | .rdgaplen => some (0x4B000000#32, 0xFFFFFFFF#32)
  | .tick => none
  | .reset => none

/-- The command that the fields of a word spell for the row of `i`: `i` with its operands replaced by the word's fields. -/
def Instr.ofFields (w : Word) : Instr → Instr
  | .setsig _ _ => .setsig (aField w) (cField w)
  | .rdsig _ => .rdsig (aField w)
  | .push _ => .push (cField w)
  | .bufwr _ _ _ => .bufwr (aField w) (bField w) (cField w)
  | .bufrd _ _ => .bufrd (aField w) (bField w)
  | .crcupd _ => .crcupd (cField w)
  | .wrseed _ => .wrseed (imm16Field w)
  | .wrcfg _ => .wrcfg (cField w)
  | .wrgap _ => .wrgap (imm24Field w)
  | .wrside _ => .wrside (cField w)
  | .clrerr _ => .clrerr (cField w)
  | .poll => .poll
  | .rdsigs => .rdsigs
  | .pull => .pull
  | .consume => .consume
  | .crcrst => .crcrst
  | .rdcrc => .rdcrc
  | .arm => .arm
  | .disarm => .disarm
  | .rdstatus => .rdstatus
  | .rdpos => .rdpos
  | .rdbits => .rdbits
  | .rdgap => .rdgap
  | .rdcfg => .rdcfg
  | .rdgaplen => .rdgaplen
  | .tick => .tick
  | .reset => .reset

/-- What a table row of `nbits` bits holding `w` presents to the block. The EVENT rows have the one-bit encoding `1`, which does
not say on which wire: it is read as the strobe on `tick`. DESIGN CHOICE, log 10. Every other value is a command word. -/
def tableEncoded (nbits w : Nat) : Encoded :=
  if nbits ≤ 8 ∧ w = 1 then .tickStrobe else .word (BitVec.ofNat 32 w)

/-- The operation the decoder reads from a row of the opcode table whose bits are `w`. A command is one 32-bit word, so the
word's bits are `w`'s bits. -/
def decodeTableWord (nbits w : Nat) : Option Instr :=
  decode (tableEncoded nbits w)

end Sys2Proof
end

