-- ==== Sys2Proof/Machine/Ports.lean ====
section
/-!
DEFINITION. The ports: which operation of those presented is ordered next (R46, R47, R167, R180), in the place of fetching an
instruction.
-/

namespace Sys2Proof.Machine

/-- A command word presented alone. -/
def Presented.command (w : Word) : Presented := { rst := false, tick := false, cmd := some w }

/-- A tick presented alone. -/
def Presented.timer : Presented := { rst := false, tick := true, cmd := none }

/-- A reset presented alone. -/
def Presented.rstOnly : Presented := { rst := true, tick := false, cmd := none }

/-- What presents an encoded operation alone. -/
def Presented.ofEncoded : Encoded → Presented
  | .tickStrobe => Presented.timer
  | .rstStrobe => Presented.rstOnly
  | .word w => Presented.command w

/-- What is taken from the ports next. -/
inductive Fetched where
  /-- Nothing is presented. -/
  | idle
  /-- A step of the environment: the state after it (R46). -/
  | environment (t : State)
  /-- An operation, and the state with it taken off the ports. -/
  | operation (r : Encoded) (t : State)
  deriving DecidableEq, Repr

/-- What of an instant is ordered after its tick: the command, if there is one (R47). -/
def Presented.afterTick (p : Presented) : List EnvStep :=
  match p.cmd with
  | some w => [.present (Presented.command w)]
  | none => []

/-- The operation of an instant that is ordered first, with the state after taking it: `RESET` beats the tick and the command
and drops them (R180); a tick goes before the command, which stays (R47); an instant at which nothing is presented passes. -/
def arbitrate (p : Presented) (rest : List EnvStep) (s : State) : Fetched :=
  if p.rst then .operation .rstStrobe (s.withInputs rest)
  else if p.tick then .operation .tickStrobe (s.withInputs (p.afterTick ++ rest))
  else
    match p.cmd with
    | some w => .operation (.word w) (s.withInputs rest)
    | none => .environment (s.withInputs rest)

/-- Take the next entry of the total order (R46, R48). -/
def fetch (s : State) : Fetched :=
  match s.inputs with
  | [] => .idle
  | .pins levels :: rest => .environment ((s.withPins levels).withInputs rest)
  | .present p :: rest => arbitrate p rest s

/-- Present an instant before everything else that is still to be presented. -/
def State.presentFirst (s : State) (p : Presented) : State := s.withInputs (.present p :: s.inputs)

/-- What the block does with an operation taken off its ports: a word that no row of the opcode table matches is refused (R65). -/
def dispatched (run : Instr → State → Result) (r : Encoded) (s : State) : Result :=
  match decode r with
  | some i => run i s
  | none => .next s.refuse

end Sys2Proof.Machine
end

