-- ==== Sys2Proof/Machine/Step.lean ====
section
/-! DEFINITION. One step: one entry of the total order of R46, an operation of the block or a step of the environment. -/

namespace Sys2Proof.Machine

/-- One step. With nothing presented the block does not change (R60: it changes state only by an operation; log 4). -/
def step (s : State) : Host.Outcome State Fault Refusal :=
  match fetch s with
  | .idle => .next s
  | .environment t => .next t
  | .operation r t => dispatched exec r t

/-- `s` with an operation of the opcode table presented as the very next one. -/
def State.withFetchWord (s : State) (nbits w : Nat) : State :=
  s.presentFirst (Presented.ofEncoded (tableEncoded nbits w))

end Sys2Proof.Machine
end

