-- ==== Sys2Proof/Machine/Controller.lean ====
section
/-!
DEFINITION. The pseudo-operations of the host (R72): `FILL` and `DRAIN` of the filler (R100, R101), `PREFILL` and `CTRL_POLL` of
the Transfer Controller (R150, R151). They are no operations of the block: each is a sequence of commands, none atomic, and ticks
and pin changes may fall between any two commands (R46, R152). Nothing of `step` depends on this file.
-/

namespace Sys2Proof.Machine

/-- `FILL b, data[0..255]` (R100): one `BUFWR` per byte, indices ascending. A storage failure gives fewer bytes (R163). -/
def fillCommands (b : BufId) (data : List Byte) : List Instr :=
  (data.take Config.bufferSize).zipIdx.map fun x => .bufwr b.toByte (BitVec.ofNat 8 x.2) x.1

/-- `DRAIN b` (R101): one `BUFRD` per index, ascending. -/
def drainCommands (b : BufId) : List Instr :=
  (List.range Config.bufferSize).map fun i => .bufrd b.toByte (BitVec.ofNat 8 i)

/-- `PREFILL d0, d1` (R72, R151): buffer 0 first. -/
def prefillCommands (d0 d1 : List Byte) : List Instr := fillCommands .buf0 d0 ++ fillCommands .buf1 d1

/-- What `CTRL_POLL` reports (R150): "back-pressure", no state of the block. -/
inductive PollResult where
  | busy
  | idle
  deriving DecidableEq, Repr

/-- The host with the machine it drives. -/
structure HostAgent where
  /-- The machine. -/
  machine : State
  /-- What the timer and the environment do before each of the host's next commands; nothing once the list is used up. -/
  between : List (List EnvStep)
  /-- The blocks the storage collaborator yields, in order (EMIT); a block shorter than 256 bytes is a storage failure (R163),
  and past the end of the list every block is empty (DESIGN CHOICE, log 16). -/
  source : List (List Byte)
  /-- The blocks given to the storage collaborator, newest first (CAPTURE). -/
  stored : List (List Byte)
  deriving DecidableEq, Repr

/-- Up to `n` steps of the machine. -/
def settle : Nat → State → State
  | 0, s => s
  | n + 1, s =>
    match step s with
    | .next t => settle n t
    | .fault _ => s
    | .refused _ => s

/-- Issue one command after what is ordered before it, and take its response (R49). An instant takes at most two steps. -/
def HostAgent.issue (h : HostAgent) (i : Instr) : Response × HostAgent :=
  let order := h.machine.inputs ++ h.between.headD [] ++ [.present (Presented.ofEncoded (encode i))]
  let m := settle (2 * order.length) (h.machine.withInputs order)
  (m.responses.headD { err := true, data := 0#32 }, { h with machine := m, between := h.between.tail })

/-- Issue commands one after the other; the responses in the same order. -/
def HostAgent.issueAll (h : HostAgent) : List Instr → List Response × HostAgent
  | [] => ([], h)
  | i :: is =>
    let (r, h) := h.issue i
    let (rs, h) := h.issueAll is
    (r :: rs, h)

/-- `source.next256()`: the storage collaborator yields its next block (R150). R150 gives the stream no end (N21). Once the list of
blocks is used up this yields the empty block, so that no `BUFWR` is issued: DESIGN CHOICE, log 16. -/
def HostAgent.nextBlock (h : HostAgent) : List Byte × HostAgent :=
  (h.source.headD [], { h with source := h.source.tail })

/-- `SETSIG` of an output signal to a logical state. -/
def HostAgent.setSignal (h : HostAgent) (o : OutSig) (v : Bool) : HostAgent :=
  (h.issue (.setsig (BitVec.ofNat 8 o.id) (if v then 1#8 else 0#8))).2

/-- `PREFILL(source)` (R151): both buffers, before arming. -/
def HostAgent.prefill (h : HostAgent) : HostAgent :=
  let (d0, h) := h.nextBlock
  let (d1, h) := h.nextBlock
  (h.issueAll (prefillCommands d0 d1)).2

/-- Step 7 of `CTRL_POLL` (R150): consume the request; fill the buffer it names, or drain it. -/
def HostAgent.service (h : HostAgent) : HostAgent :=
  let (r, h) := h.issue .consume
  if r.data = 0#32 then h
  else
    let b : BufId := if r.data = 1#32 then .buf0 else .buf1
    match h.machine.engine.dir with
    | .emit =>
      let (d, h) := h.nextBlock
      (h.issueAll (fillCommands b d)).2
    | .capture =>
      let (rs, h) := h.issueAll (drainCommands b)
      { h with stored := rs.map (fun r => r.data.setWidth 8) :: h.stored }

/-- Steps 3 to 6 of `CTRL_POLL` (R150). -/
def HostAgent.control (h : HostAgent) (stop scan active : Bool) : PollResult × HostAgent :=
  if active && stop then
    (.idle, HostAgent.setSignal (h.issue .disarm).2 .motorOn false)
  else if !stop && scan && !active then
    let h := h.setSignal .motorOn true
    let h := match h.machine.engine.dir with
      | .emit => h.prefill
      | .capture => h
    (.busy, (h.issue .arm).2)
  else if active then (.busy, h)
  else (.idle, h)

/-- `CTRL_POLL(source)` (R150): one iteration of the Transfer Controller. -/
def HostAgent.ctrlPoll (h : HostAgent) : PollResult × HostAgent :=
  let (s, h) := h.issue .poll
  let stop := s.data.getLsbD 4
  let scan := s.data.getLsbD 5
  let motor := s.data.getLsbD 1
  let (st, h) := h.issue .rdstatus
  let active := st.data.getLsbD 2
  let h := h.setSignal .ready (scan && motor)
  let (result, h) := h.control stop scan active
  (result, h.service)

end Sys2Proof.Machine
end

