-- ==== Sys2Proof/Safety.lean ====
section
/-!
DEFINITION. The vocabulary of the claims: what an accepted and a refused command leave behind, written out from the spec, not from
the model's own operations; runs of several operations; the invariants; and which commands are legal when (R64, R68).
-/

namespace Sys2Proof.Machine

/-! ### What an operation leaves behind, written out -/

/-- `s` with one more response: accepted, with data `v` (R61). -/
def State.answered (s : State) (v : Word) : State :=
  { s with responses := { err := false, data := v } :: s.responses }

/-- `s` after a refused command (R66): `cmderr` is 1 and the response is `(1, 0)`. -/
def State.turnedAway (s : State) : State :=
  { s with
    flags := { s.flags with cmderr := true }
    responses := { err := true, data := 0#32 } :: s.responses }

/-- `s` with the cursor moved one engine-port access on (R20, R92): from index 255 it goes to index 0 of the other buffer, and the
buffer just left is requested; a request that was still pending is lost and `underrun` is 1. -/
def State.stepCursor (s : State) : State :=
  if s.store.cur = 255#8 then
    { s with
      store := { s.store with
        cur := 0#8
        sel := if s.store.sel = .buf0 then .buf1 else .buf0
        refill := some s.store.sel }
      flags := { s.flags with underrun := s.flags.underrun || s.store.refill.isSome } }
  else { s with store := { s.store with cur := s.store.cur + 1#8 } }

/-- The flat address of the byte under the cursor (R29). -/
def State.cursorAddr (s : State) : Nat := 256 * (if s.store.sel = .buf0 then 0 else 1) + s.store.cur.toNat

/-! ### How the words of an opcode decode (R62, R67) -/

/-- Every word with opcode `op` is the format Z command `i`, or nothing when `CMD[23:0]` is not 0. -/
def SpelledZ (op : Byte) (i : Instr) : Prop :=
  ∀ w : Word, opField w = op → decodeWord w = if w.extractLsb' 0 24 = 0#24 then some i else none

/-- Every word with opcode `op` is the format C command `f c`, or nothing when `a` or `b` is not 0 or `c` is not below `bound`. -/
def SpelledC (op : Byte) (f : Byte → Instr) (bound : Nat) : Prop :=
  ∀ w : Word, opField w = op →
    decodeWord w =
      if w.extractLsb' 8 16 = 0#16 ∧ (w.extractLsb' 0 8).toNat < bound then some (f (w.extractLsb' 0 8)) else none

/-! ### Legality (R64, column "legal when"; R68) -/

/-- Whether a command is legal in a state. The events are always accepted (R69). -/
def legalNow (s : State) : Instr → Bool
  | .setsig _ _ => true
  | .rdsig _ => true
  | .poll => true
  | .rdsigs => true
  | .push _ => decide (s.engine.fsm = .disarmed)
  | .pull => decide (s.engine.fsm = .disarmed)
  | .consume => true
  | .bufwr _ _ _ => true
  | .bufrd _ _ => true
  | .crcrst => decide (s.engine.fsm = .disarmed) || !s.engine.cfg.getLsbD 4
  | .crcupd _ => decide (s.engine.fsm = .disarmed) || !s.engine.cfg.getLsbD 4
  | .wrseed _ => decide (s.engine.fsm = .disarmed)
  | .rdcrc => true
  | .arm => decide (s.engine.fsm = .disarmed)
  | .disarm => true
  | .wrcfg _ => decide (s.engine.fsm = .disarmed)
  | .wrgap _ => decide (s.engine.fsm = .disarmed)
  | .wrside _ => true
  | .rdstatus => true
  | .rdpos => true
  | .rdbits => true
  | .rdgap => true
  | .rdcfg => true
  | .clrerr _ => true
  | .rdgaplen => true
  | .tick => true
  | .reset => true

/-- Whether an operation is one of the two events (R69). -/
def isEvent (i : Instr) : Bool := decide (i = .tick ∨ i = .reset)

/-! ### Runs -/

/-- Operations one after the other, nothing between them. -/
def runOps : List Instr → State → Result
  | [], s => .next s
  | i :: is, s =>
    match exec i s with
    | .next t => runOps is t
    | .fault r => .fault r
    | .refused r => .refused r

/-- `n` ticks, nothing between them. -/
def runTicks (n : Nat) (s : State) : Result := runOps (List.replicate n .tick) s

/-- `n` steps of the machine. -/
def runSteps : Nat → State → Result
  | 0, s => .next s
  | n + 1, s =>
    match step s with
    | .next t => runSteps n t
    | .fault r => .fault r
    | .refused r => .refused r

/-- The gap is counted (R121): emitting, or capturing under the COUNT policy. -/
def State.countsGap (s : State) : Bool := !s.engine.cfg.getLsbD 0 || !s.engine.cfg.getLsbD 3

/-- The number of low-phase Transferring ticks among the first `n` ticks of a session with a counted gap of `g` ticks: the ticks
after the `g`-th whose number is odd (R139). -/
def bitsMoved (g n : Nat) : Nat := (n + 1) / 2 - (g + 1) / 2

/-- The buffer named by the `j`-th refill request of a session, `j` from 1: 0, 1, 0, 1, ... (R102). -/
def requestedBuffer (j : Nat) : BufId := if j % 2 = 1 then .buf0 else .buf1

/-- The refill register after `p` engine-port accesses from buffer 0, index 0, with no `CONSUME` (R102). -/
def requestAfter (p : Nat) : Option BufId := if p < 256 then none else some (requestedBuffer (p / 256))

/-- The inputs of one captured byte: for each bit-cell the level of `P_DATA_IN`, then the cell's two ticks (R19, R43). -/
def cellsOf (p : Pins) (msb : Bool) (v : Byte) : List EnvStep :=
  [0, 1, 2, 3, 4, 5, 6, 7].flatMap fun k =>
    [.pins { p with dataIn := v.getLsbD (if msb then 7 - k else k) },
     .present { rst := false, tick := true, cmd := none },
     .present { rst := false, tick := true, cmd := none }]

/-! ### The CRC commonly computed with the reflected polynomial 0x8408 -/

/-- Eight shifts of the reflected CRC register, with no data entering. -/
def reflectedShift8 (c : BitVec 16) : BitVec 16 :=
  [0, 1, 2, 3, 4, 5, 6, 7].foldl (fun (c : BitVec 16) (_ : Nat) => if c.getLsbD 0 then (c >>> 1) ^^^ 0x8408#16 else c >>> 1) c

/-- The reflected CRC-16 with polynomial 0x8408 and initial value 0, each byte XORed into the low end before its eight shifts
(R106, last sentences: general knowledge of the spec, not a rule of the block). -/
def reflectedCrc (m : List Byte) : BitVec 16 :=
  m.foldl (fun c b => reflectedShift8 (c ^^^ b.setWidth 16)) 0#16

/-! ### Invariants -/

/-- The RAM is in canonical form. -/
def RamCanonical (s : State) : Prop := s.store.ram.wf = true

/-- A pending request names the buffer that is not active (R92, last sentence). -/
def RequestNamesVacated (s : State) : Prop := ∀ b, s.store.refill = some b → s.store.sel ≠ b

/-- The counters of a session agree with its state (R134, R121, R128). -/
def CountersAgree (s : State) : Prop :=
  (s.engine.fsm = .disarmed → s.engine.bitssent = 0#3 ∧ s.engine.curByte = 0#8) ∧
  (s.engine.fsm = .gap → s.engine.bitssent = 0#3 ∧ s.engine.pos = 0#32 ∧ s.engine.bitcnt = 0#32) ∧
  (s.engine.fsm = .xfer → s.engine.bitcnt = 8#32 * s.engine.pos + s.engine.bitssent.setWidth 32)

/-- While capturing, the data line stays 0 (R121, R125) and the bits of the byte not yet sampled are 0 (R10). -/
def CaptureClean (s : State) : Prop :=
  s.engine.fsm ≠ .disarmed → s.engine.cfg.getLsbD 0 = true →
    s.engine.dataOut = false ∧
    ∀ k : Nat, k < 8 → s.engine.bitssent.toNat ≤ k →
      s.engine.curByte.getLsbD (if s.engine.cfg.getLsbD 2 then 7 - k else k) = false

/-! ### What may fall between the commands of the host -/

/-- The environment entries that are ticks and pin changes only: no command and no reset (R48). -/
def EnvStep.quiet : EnvStep → Bool
  | .pins _ => true
  | .present p => !p.rst && p.cmd.isNone

end Sys2Proof.Machine
end

