-- ==== Sys2Proof/Certificates/Slice0/Obligations.lean ====
section
/-!
DEFINITION. The statements about TFDS-CORE, for the provers. A docstring names the rules a statement formalises; log n is
notes/assumptions/n.md.
-/

open Sys2Proof Sys2Proof.Machine

/-! ### Encoding -/

/-- Command words of R64, one of each format, written out in bits, decode to the commands they stand for; and the two strobes of
R69. -/
def Obligations.WordsOfEveryFormatDecode : Prop :=
  decode (.word 0x12000000#32) = some .poll ∧
  decode (.word 0x11050000#32) = some (.rdsig 5#8) ∧
  decode (.word 0x10010001#32) = some (.setsig 1#8 1#8) ∧
  decode (.word 0x2000007E#32) = some (.push 0x7E#8) ∧
  decode (.word 0x2401FF00#32) = some (.bufrd 1#8 255#8) ∧
  decode (.word 0x2301FFA5#32) = some (.bufwr 1#8 255#8 0xA5#8) ∧
  decode (.word 0x3200BEEF#32) = some (.wrseed 0xBEEF#16) ∧
  decode (.word 0x43006D60#32) = some (.wrgap 28000#24) ∧
  decode .tickStrobe = some .tick ∧
  decode .rstStrobe = some .reset

/-- Decoding the encoding of a well-formed operation gives the operation back, with every operand at every value it admits. -/
def Obligations.DecodeOfEncode : Prop :=
  ∀ i : Instr, i.wf = true → decode (encode i) = some i

/-- What decodes at all is well-formed, and is the encoding of what it decodes to: no two encodings share an operation (R70). -/
def Obligations.EncodeOfDecode : Prop :=
  ∀ (e : Encoded) (i : Instr), decode e = some i → i.wf = true ∧ encode i = e

/-- The match and mask columns of R64: a word decodes to `i` exactly when it matches the row of `i`, its fields spell `i`'s
operands, and the extra condition of `RDSIG` (`a` is not 7) holds. -/
def Obligations.DecodeFollowsOpcodeTable : Prop :=
  ∀ (w : Word) (i : Instr),
    decodeWord w = some i ↔
      (∃ v m, i.matchMask = some (v, m) ∧ w &&& m = v) ∧ i.ofFields w = i ∧ i ≠ .rdsig 7#8

/-- R65: a word with an opcode byte that is not in the table, with a must-be-zero field that is not 0, or with an operand outside its
range decodes to nothing, whatever the state; and a word that decodes to nothing is refused. -/
def Obligations.UnlistedWordsAreRefused : Prop :=
  (∀ w : Word,
    (opField w).toNat ≤ 0x0F ∨ (0x14 ≤ (opField w).toNat ∧ (opField w).toNat ≤ 0x1F) ∨
    (0x25 ≤ (opField w).toNat ∧ (opField w).toNat ≤ 0x2F) ∨
    (0x34 ≤ (opField w).toNat ∧ (opField w).toNat ≤ 0x3F) ∨ 0x4C ≤ (opField w).toNat →
    decodeWord w = none) ∧
  decodeWord 0x00000000#32 = none ∧ decodeWord 0xFFFFFFFF#32 = none ∧
  (∀ w : Word, opField w = 0x10#8 → 4 ≤ (aField w).toNat ∨ bField w ≠ 0#8 ∨ 2 ≤ (cField w).toNat → decodeWord w = none) ∧
  (∀ w : Word, opField w = 0x11#8 → 7 ≤ (aField w).toNat ∨ bField w ≠ 0#8 ∨ cField w ≠ 0#8 → decodeWord w = none) ∧
  (∀ w : Word, opField w = 0x23#8 → 2 ≤ (aField w).toNat → decodeWord w = none) ∧
  (∀ w : Word, opField w = 0x24#8 → 2 ≤ (aField w).toNat ∨ cField w ≠ 0#8 → decodeWord w = none) ∧
  (∀ w : Word, opField w = 0x42#8 → w.extractLsb' 5 3 ≠ 0#3 → decodeWord w = none) ∧
  (∀ w : Word, opField w = 0x4A#8 → w.extractLsb' 3 5 ≠ 0#5 → decodeWord w = none) ∧
  (∀ w : Word, opField w ∈ [0x12#8, 0x13#8, 0x21#8, 0x22#8, 0x30#8, 0x33#8, 0x40#8, 0x41#8, 0x45#8, 0x46#8, 0x47#8, 0x48#8,
      0x49#8, 0x4B#8] → w.extractLsb' 0 24 ≠ 0#24 → decodeWord w = none) ∧
  (∀ w : Word, opField w ∈ [0x20#8, 0x31#8, 0x42#8, 0x44#8, 0x4A#8] → w.extractLsb' 8 16 ≠ 0#16 → decodeWord w = none) ∧
  (∀ w : Word, opField w = 0x32#8 → aField w ≠ 0#8 → decodeWord w = none) ∧
  (∀ (s : State) (w : Word) (rest : List EnvStep),
    s.inputs = .present { rst := false, tick := false, cmd := some w } :: rest → decodeWord w = none →
    step s = .next ({ s with inputs := rest } : State).turnedAway)

/-! ### One step, and the order of operations -/

/-- A step runs the operation presented next (R46, R60, R69): a command word that decodes, a tick, a reset; the operation is taken
off the ports and nothing else is added around `exec`. A pin change and an instant with nothing presented are steps of the
environment, and with nothing to come the block does not change (log 1, log 4: the list of inputs is the model's own). -/
def Obligations.StepRunsTheDecodedOperation : Prop :=
  (∀ (s : State) (w : Word) (i : Instr) (rest : List EnvStep),
    s.inputs = .present { rst := false, tick := false, cmd := some w } :: rest → decode (.word w) = some i →
    step s = exec i { s with inputs := rest }) ∧
  (∀ (s : State) (rest : List EnvStep),
    s.inputs = .present { rst := false, tick := true, cmd := none } :: rest → step s = exec .tick { s with inputs := rest }) ∧
  (∀ (s : State) (rest : List EnvStep),
    s.inputs = .present { rst := true, tick := false, cmd := none } :: rest → step s = exec .reset { s with inputs := rest }) ∧
  (∀ (s : State) (rest : List EnvStep) (p : Pins),
    s.inputs = .pins p :: rest → step s = .next { s with pins := p, inputs := rest }) ∧
  (∀ (s : State) (rest : List EnvStep),
    s.inputs = .present { rst := false, tick := false, cmd := none } :: rest → step s = .next { s with inputs := rest }) ∧
  (∀ s : State, s.inputs = [] → step s = .next s)

/-- R47: of a tick and a command presented at the same instant the tick is ordered first; the command is the next operation. -/
def Obligations.TickGoesBeforeCommand : Prop :=
  ∀ (s : State) (w : Word) (rest : List EnvStep),
    s.inputs = .present { rst := false, tick := true, cmd := some w } :: rest →
    step s = exec .tick { s with inputs := .present { rst := false, tick := false, cmd := some w } :: rest }

/-- Nothing in the block stops: every operation, well-formed or not, completes in every state, and so does every step (R61, R118). -/
def Obligations.EveryOperationCompletes : Prop :=
  (∀ (i : Instr) (s : State), ∃ t, exec i s = .next t) ∧ (∀ s : State, ∃ t, step s = .next t)

/-- Exactly one response per command (R61): accepted with `err` 0, or refused with `(1, 0)`; an event gives none (R69), and what is
still to be presented and the pins stay (log 1, log 3: both lists are the model's own). -/
def Obligations.EveryCommandAnswersOnce : Prop :=
  (∀ (i : Instr) (s t : State), isEvent i = false → exec i s = .next t →
    ∃ r : Response, t.responses = r :: s.responses ∧ (r.err = true → r.data = 0#32) ∧ t.inputs = s.inputs ∧ t.pins = s.pins) ∧
  (∀ (i : Instr) (s t : State), isEvent i = true → exec i s = .next t →
    t.responses = s.responses ∧ t.inputs = s.inputs ∧ t.pins = s.pins) ∧
  (∀ (s t : State) (w : Word) (rest : List EnvStep),
    s.inputs = .present { rst := false, tick := false, cmd := some w } :: rest → step s = .next t →
    ∃ r : Response, t.responses = r :: s.responses ∧ (r.err = true → r.data = 0#32))

/-- R66: a command is refused when its word matches no row, or when its row's "legal when" condition is false, and for no other
reason; a refusal sets `cmderr`, answers `(1, 0)` and changes nothing else, so the engine goes on. -/
def Obligations.RefusalHasOneEffect : Prop :=
  ∀ (s : State) (w : Word) (rest : List EnvStep),
    s.inputs = .present { rst := false, tick := false, cmd := some w } :: rest →
    (decodeWord w = none → step s = .next ({ s with inputs := rest } : State).turnedAway) ∧
    (∀ i, decodeWord w = some i → legalNow s i = false → step s = .next ({ s with inputs := rest } : State).turnedAway) ∧
    (∀ i t, decodeWord w = some i → legalNow s i = true → step s = .next t →
      ∃ v : Word, t.responses = { err := false, data := v } :: s.responses)

/-- R68: while a session is armed exactly `PUSH`, `PULL`, `ARM`, `WRCFG`, `WRGAP`, `WRSEED` are refused, and `CRCRST`, `CRCUPD` when
`CFG.CRC_EN` is 1; every other well-formed command is accepted in every state. -/
def Obligations.CommandsRefusedWhileArmed : Prop :=
  ∀ (s : State) (i : Instr), i.wf = true → isEvent i = false →
    (exec i s = .next s.turnedAway ↔
      s.engine.fsm ≠ .disarmed ∧
        ((∃ c, i = .push c) ∨ i = .pull ∨ i = .arm ∨ (∃ c, i = .wrcfg c) ∨ (∃ g, i = .wrgap g) ∨ (∃ v, i = .wrseed v) ∨
          (s.engine.cfg.getLsbD 4 = true ∧ (i = .crcrst ∨ ∃ c, i = .crcupd c))))

/-! ### Signal lines -/

/-- R82: `SETSIG` sets one output signal, its pin follows at once, every other signal and everything else is unchanged; an id above 3
or a level above 1 is refused; its encoding. -/
def Obligations.SetsigDrivesOneOutput : Prop :=
  (∀ (s : State) (a c : Byte) (o : OutSig), a.toNat = o.id → c.toNat ≤ 1 →
    ∃ t, exec (.setsig a c) s = .next t ∧
      t.signals.get (.out o) = decide (c = 1#8) ∧
      (∀ g, g ≠ .out o → t.signals.get g = s.signals.get g) ∧
      t.pinOut o = (t.signals.get (.out o) ^^ decide (o = .mediaSet)) ∧
      t = { s with signals := t.signals, responses := { err := false, data := 0#32 } :: s.responses }) ∧
  (∀ (s : State) (a c : Byte), 3 < a.toNat ∨ 1 < c.toNat → exec (.setsig a c) s = .next s.turnedAway) ∧
  (∀ w : Word, opField w = 0x10#8 →
    decodeWord w =
      if (aField w).toNat ≤ 3 ∧ bField w = 0#8 ∧ (cField w).toNat ≤ 1 then some (.setsig (aField w) (cField w)) else none)

/-- R83: `RDSIG` returns the logical value of one signal: the last written value of an output, the last polled value of an input,
whatever the pins carry; nothing else changes; an id above 6 is refused; its encoding. -/
def Obligations.RdsigReturnsLogicalState : Prop :=
  (∀ (s : State) (a : Byte) (g : Signal), a.toNat = g.id →
    exec (.rdsig a) s = .next (s.answered (if s.signals.get g then 1#32 else 0#32))) ∧
  (∀ (s : State) (a : Byte), 6 < a.toNat → exec (.rdsig a) s = .next s.turnedAway) ∧
  (∀ w : Word, opField w = 0x11#8 →
    decodeWord w = if (aField w).toNat ≤ 6 ∧ w.extractLsb' 0 16 = 0#16 then some (.rdsig (aField w)) else none)

/-- R28 and R84: the `SIGS` word has bit `i` = the logical state of signal `i`, bit 7 = 0, bit 8 = `data_out`, bit 9 = `clk_out`, the
rest 0; `RDSIGS` returns it and changes nothing; `POLL` returns it as it is after its update; the encoding of `RDSIGS`. -/
def Obligations.SigsWordLayout : Prop :=
  (∀ s : State,
    (∀ g : Signal, s.sigsWord.getLsbD g.id = s.signals.get g) ∧
    s.sigsWord.getLsbD 7 = false ∧ s.sigsWord.getLsbD 8 = s.engine.dataOut ∧ s.sigsWord.getLsbD 9 = s.engine.clkOut ∧
    (∀ k, 10 ≤ k → s.sigsWord.getLsbD k = false) ∧
    exec .rdsigs s = .next (s.answered s.sigsWord) ∧
    ∃ t, exec .poll s = .next t ∧ t.responses = { err := false, data := t.sigsWord } :: s.responses) ∧
  SpelledZ 0x13#8 .rdsigs

/-- R85: `POLL` latches all three input pins, each inverted because all three are active-low, and changes no output signal and
nothing else; it returns the record after the update; no other operation but reset changes an input register; its encoding. -/
def Obligations.PollLatchesTheInputs : Prop :=
  (∀ s : State, ∃ t, exec .poll s = .next t ∧
    t.signals.stopMotor = !s.pins.stopMotor ∧ t.signals.scanMedia = !s.pins.scanMedia ∧
    t.signals.writeEnable = !s.pins.writeEn ∧
    (∀ o : OutSig, t.signals.get (.out o) = s.signals.get (.out o)) ∧
    t = { s with signals := t.signals, responses := { err := false, data := t.sigsWord } :: s.responses }) ∧
  (∀ (i : Instr) (s t : State), i ≠ .poll → i ≠ .reset → exec i s = .next t →
    ∀ g : InSig, t.signals.get (.inp g) = s.signals.get (.inp g)) ∧
  SpelledZ 0x12#8 .poll

/-- R86: two polls at the same pin levels leave the same input registers, whatever happened between them, and the same record when
nothing did; between polls the input registers are constant whatever the pins do; the output registers change only at `SETSIG` and
reset. -/
def Obligations.SignalRegistersAreStable : Prop :=
  (∀ s s' t u : State, s'.pins = s.pins → exec .poll s = .next t → exec .poll s' = .next u →
    ∀ g : InSig, u.signals.get (.inp g) = t.signals.get (.inp g)) ∧
  (∀ s t u : State, exec .poll s = .next t → exec .poll t = .next u → u.signals = t.signals) ∧
  (∀ (i : Instr) (s t : State), i ≠ .poll → i ≠ .reset → exec i s = .next t →
    ∀ g : InSig, t.signals.get (.inp g) = s.signals.get (.inp g)) ∧
  (∀ (s : State) (p : Pins) (rest : List EnvStep), s.inputs = .pins p :: rest →
    ∃ t, step s = .next t ∧ t.signals = s.signals) ∧
  (∀ (i : Instr) (s t : State), (∀ a c, i ≠ .setsig a c) → i ≠ .reset → exec i s = .next t →
    ∀ o : OutSig, t.signals.get (.out o) = s.signals.get (.out o))

/-- R81 and R182: the pin of media-set is the inverse of its register, the pins of the other three outputs equal theirs; a low input
pin is latched as asserted by `POLL`, a high one as deasserted; after `RESET` the six output pins are 1, 0, 0, 0, 0, 0. -/
def Obligations.PinsFollowPolarity : Prop :=
  (∀ s : State,
    s.pinOut .mediaSet = !s.signals.mediaSet ∧ s.pinOut .motorOn = s.signals.motorOn ∧
    s.pinOut .ready = s.signals.ready ∧ s.pinOut .rwMedia = s.signals.rwMedia) ∧
  (∀ (s : State) (g : InSig), ∃ t, exec .poll s = .next t ∧ (s.pins.ofInput g = false ↔ t.signals.get (.inp g) = true)) ∧
  (∀ s : State, ∃ t, exec .reset s = .next t ∧
    t.pinOut .mediaSet = true ∧ t.pinOut .motorOn = false ∧ t.pinOut .ready = false ∧ t.pinOut .rwMedia = false ∧
    t.pinDataOut = false ∧ t.pinClkOut = false)

/-! ### Double buffer -/

/-- R93 and R95: `PUSH` while disarmed writes its byte under the cursor, changes no other byte, and moves the cursor on; nothing else
changes but the flag and the request of the cursor step; while armed it is refused; its encoding. -/
def Obligations.PushWritesUnderTheCursor : Prop :=
  (∀ (s : State) (c : Byte), s.engine.fsm = .disarmed →
    ∃ t, exec (.push c) s = .next t ∧
      t.store.ram.read s.cursorAddr = c ∧
      (∀ a, a ≠ s.cursorAddr → t.store.ram.read a = s.store.ram.read a) ∧
      t = { s.stepCursor with
            store := { s.stepCursor.store with ram := t.store.ram }
            responses := { err := false, data := 0#32 } :: s.responses }) ∧
  (∀ (s : State) (c : Byte), s.engine.fsm ≠ .disarmed → exec (.push c) s = .next s.turnedAway) ∧
  SpelledC 0x20#8 .push 256

/-- R94 and R96: `PULL` while disarmed returns the byte under the cursor and moves the cursor on; no byte of the RAM changes; while
armed it is refused; its encoding. -/
def Obligations.PullReadsUnderTheCursor : Prop :=
  (∀ s : State, s.engine.fsm = .disarmed →
    exec .pull s = .next (s.stepCursor.answered ((s.store.ram.read s.cursorAddr).setWidth 32))) ∧
  (∀ s : State, ∀ a, s.stepCursor.store.ram.read a = s.store.ram.read a) ∧
  (∀ s : State, s.engine.fsm ≠ .disarmed → exec .pull s = .next s.turnedAway) ∧
  SpelledZ 0x21#8 .pull

/-- R97: `CONSUME` returns the pending request as 0, 1 or 2 and clears it, in every state, and changes nothing else; a second one
answers 0; its encoding. -/
def Obligations.ConsumeReadsAndClears : Prop :=
  (∀ s : State,
    exec .consume s = .next
      { s with
        store := { s.store with refill := none }
        responses :=
          { err := false
            data := match s.store.refill with
              | none => 0#32
              | some .buf0 => 1#32
              | some .buf1 => 2#32 } :: s.responses }) ∧
  (∀ s t : State, exec .consume s = .next t → exec .consume t = .next (t.answered 0#32)) ∧
  SpelledZ 0x22#8 .consume

/-- R98: `BUFWR` writes one byte at flat address `256*a + b`, in every state, for either buffer; no other byte and nothing else
changes; a buffer id above 1 is refused; its encoding. -/
def Obligations.BufwrWritesOneByte : Prop :=
  (∀ (s : State) (a b c : Byte), a.toNat ≤ 1 →
    ∃ t, exec (.bufwr a b c) s = .next t ∧
      t.store.ram.read (256 * a.toNat + b.toNat) = c ∧
      (∀ x, x ≠ 256 * a.toNat + b.toNat → t.store.ram.read x = s.store.ram.read x) ∧
      t = { s with
            store := { s.store with ram := t.store.ram }
            responses := { err := false, data := 0#32 } :: s.responses }) ∧
  (∀ (s : State) (a b c : Byte), 1 < a.toNat → exec (.bufwr a b c) s = .next s.turnedAway) ∧
  (∀ w : Word, opField w = 0x23#8 →
    decodeWord w = if (aField w).toNat ≤ 1 then some (.bufwr (aField w) (bField w) (cField w)) else none)

/-- R99: `BUFRD` returns the byte at flat address `256*a + b`, in every state, and changes nothing; a buffer id above 1 is refused;
its encoding. -/
def Obligations.BufrdReadsOneByte : Prop :=
  (∀ (s : State) (a b : Byte), a.toNat ≤ 1 →
    exec (.bufrd a b) s = .next (s.answered ((s.store.ram.read (256 * a.toNat + b.toNat)).setWidth 32))) ∧
  (∀ (s : State) (a b : Byte), 1 < a.toNat → exec (.bufrd a b) s = .next s.turnedAway) ∧
  (∀ w : Word, opField w = 0x24#8 →
    decodeWord w = if (aField w).toNat ≤ 1 ∧ cField w = 0#8 then some (.bufrd (aField w) (bField w)) else none)

/-- R102: `k` engine-port accesses from buffer 0, index 0 with no request pending, `PUSH` and `PULL` mixed freely and no `CONSUME`,
leave the cursor at `k` mod 256 of buffer `k / 256` mod 2, the request of the last of `k / 256` wraps pending, and `underrun` set as
soon as two wraps were made. -/
def Obligations.AccessCountGivesCursor : Prop :=
  ∀ (s : State) (is : List Instr),
    s.engine.fsm = .disarmed → s.store.sel = .buf0 → s.store.cur = 0#8 → s.store.refill = none →
    (∀ i ∈ is, i = .pull ∨ ∃ c, i = .push c) →
    ∃ t, runOps is s = .next t ∧
      t.store.cur.toNat = is.length % 256 ∧ t.store.sel.index = is.length / 256 % 2 ∧
      t.store.refill = requestAfter is.length ∧
      t.flags.underrun = (s.flags.underrun || decide (512 ≤ is.length))

/-- R102, second half: a consumer that issues `CONSUME` after every access sees a request exactly once per 256 accesses, for buffer
0, 1, 0, 1, ..., and `underrun` is never set. -/
def Obligations.ConsumerSeesAlternatingRequests : Prop :=
  ∀ (s : State) (is : List Instr),
    s.engine.fsm = .disarmed → s.store.sel = .buf0 → s.store.cur = 0#8 → s.store.refill = none →
    (∀ i ∈ is, i = .pull ∨ ∃ c, i = .push c) → is ≠ [] →
    ∃ t, runOps (is.flatMap fun i => [i, .consume]) s = .next t ∧
      t.responses.head? = some
        { err := false
          data := if is.length % 256 = 0 then (if is.length / 256 % 2 = 1 then 1#32 else 2#32) else 0#32 } ∧
      t.store.refill = none ∧ t.flags.underrun = s.flags.underrun

/-- R100 and R101: the commands of `FILL` put the given bytes into their buffer in order and change no other byte; those of `DRAIN`
return the 256 bytes of their buffer in order and change nothing; both in every state. A shorter `FILL` (R163) leaves the rest. -/
def Obligations.FillAndDrainMoveABuffer : Prop :=
  (∀ (s : State) (b : BufId) (data : List Byte), data.length ≤ 256 →
    ∃ t, runOps (fillCommands b data) s = .next t ∧
      (∀ i, i < data.length → t.store.ram.read (256 * b.index + i) = data.getD i 0#8) ∧
      (∀ a, a < 256 * b.index ∨ 256 * b.index + data.length ≤ a → t.store.ram.read a = s.store.ram.read a) ∧
      t = { s with
            store := { s.store with ram := t.store.ram }
            responses := List.replicate data.length { err := false, data := 0#32 } ++ s.responses }) ∧
  (∀ (s : State) (b : BufId),
    runOps (drainCommands b) s = .next
      { s with
        responses :=
          ((List.range 256).map fun i =>
            ({ err := false, data := (s.store.ram.read (256 * b.index + i)).setWidth 32 } : Response)).reverse
            ++ s.responses })

/-- R181: a byte written before a `RESET` is read back after it, and so is every byte the write left alone; right after power-up a
read returns what the RAM holds there, whatever that is (the free value of log 6). -/
def Obligations.RamSurvivesReset : Prop :=
  (∀ (s : State) (a b c : Byte), a.toNat ≤ 1 →
    ∃ t u, exec (.bufwr a b c) s = .next t ∧ exec .reset t = .next u ∧
      exec (.bufrd a b) u = .next (u.answered (c.setWidth 32)) ∧
      ∀ x, u.store.ram.read x = t.store.ram.read x) ∧
  (∀ a b : Byte, a.toNat ≤ 1 →
    exec (.bufrd a b) State.reset =
      .next (State.reset.answered ((Config.powerUpByte (256 * a.toNat + b.toNat)).setWidth 32)))

/-! ### CRC -/

/-- R107 and R108: `CRCRST` loads the accumulator from the seed and `CRCUPD` feeds it one byte and returns the new value; nothing else
changes; both are refused while armed with `CRC_EN` = 1, and only then; their encodings. -/
def Obligations.CrcCommandsUpdateTheAccumulator : Prop :=
  (∀ s : State, s.engine.fsm = .disarmed ∨ s.engine.cfg.getLsbD 4 = false →
    exec .crcrst s = .next
      { s with
        crc := { s.crc with value := s.crc.seed }
        responses := { err := false, data := 0#32 } :: s.responses }) ∧
  (∀ (s : State) (c : Byte), s.engine.fsm = .disarmed ∨ s.engine.cfg.getLsbD 4 = false →
    exec (.crcupd c) s = .next
      { s with
        crc := { s.crc with value := crcUpdate s.crc.value c }
        responses := { err := false, data := (crcUpdate s.crc.value c).setWidth 32 } :: s.responses }) ∧
  (∀ (s : State) (c : Byte), s.engine.fsm ≠ .disarmed → s.engine.cfg.getLsbD 4 = true →
    exec .crcrst s = .next s.turnedAway ∧ exec (.crcupd c) s = .next s.turnedAway) ∧
  SpelledZ 0x30#8 .crcrst ∧ SpelledC 0x31#8 .crcupd 256

/-- One byte through the accumulator is linear over GF(2) in the register and the byte together (R106). -/
def Obligations.CrcUpdateIsLinear : Prop :=
  ∀ (c c' : BitVec 16) (b b' : Byte), crcUpdate (c ^^^ c') (b ^^^ b') = crcUpdate c b ^^^ crcUpdate c' b'

/-- Feeding bytes with `CRCUPD` leaves a function of the starting value and the bytes, and `[0x00]` from 0x0000 gives 0x0000 (R111);
from a zero register leading zero bytes do not count (R111), and a nonzero register never becomes zero by zero bytes (from R106). -/
def Obligations.CrcIsDeterministicAndZeroStaysZero : Prop :=
  (∀ (s : State) (bs : List Byte), s.engine.fsm = .disarmed ∨ s.engine.cfg.getLsbD 4 = false →
    ∃ t, runOps (bs.map .crcupd) s = .next t ∧ t.crc.value = bs.foldl crcUpdate s.crc.value) ∧
  crcUpdate 0x0000#16 0x00#8 = 0x0000#16 ∧
  (∀ (n : Nat) (bs : List Byte), (List.replicate n 0x00#8 ++ bs).foldl crcUpdate 0x0000#16 = bs.foldl crcUpdate 0x0000#16) ∧
  (∀ (c : BitVec 16) (n : Nat), c ≠ 0x0000#16 → (List.replicate n 0x00#8).foldl crcUpdate c ≠ 0x0000#16)

/-- The register after a message followed by two zero bytes is the common reflected CRC-16 of the message alone, polynomial 0x8408
and initial value 0 (the consequence of the recurrence that R106 names in its last sentences). -/
def Obligations.CrcOfPaddedMessageIsReflectedCrc : Prop :=
  ∀ m : List Byte, (m ++ [0x00#8, 0x00#8]).foldl crcUpdate 0x0000#16 = reflectedCrc m

/-! ### Sessions, configuration, reads -/

/-- R127: `ARM` while disarmed starts a session: buffer 0 index 0, no request, the gap counter from `gap_len`, the accumulator from
the seed, counters and lines 0, in EMIT direction the first byte fetched; nothing else changes, the sticky flags among it; while armed
it is refused; its encoding. -/
def Obligations.ArmStartsASession : Prop :=
  (∀ s : State, s.engine.fsm = .disarmed →
    exec .arm s = .next
      { s with
        store := { s.store with
          sel := .buf0
          cur := if s.engine.cfg.getLsbD 0 = true then 0#8 else 1#8
          refill := none }
        crc := { s.crc with value := s.crc.seed }
        engine := { s.engine with
          fsm := .gap
          ph := false
          bitssent := 0#3
          curByte := if s.engine.cfg.getLsbD 0 = true then 0#8 else s.store.ram.read 0
          gapCnt := s.engine.gapLen
          pos := 0#32
          bitcnt := 0#32
          dataOut := false
          clkOut := false }
        responses := { err := false, data := 0#32 } :: s.responses }) ∧
  (∀ s : State, s.engine.fsm ≠ .disarmed → exec .arm s = .next s.turnedAway) ∧
  SpelledZ 0x40#8 .arm

/-- R128: `DISARM` ends a session, discards the byte in flight and sets `abort` when there was one in `XFER`; everything else stays,
so the counters and the lines can still be read; disarmed it does nothing; every later tick is a no-op; its encoding. -/
def Obligations.DisarmEndsASession : Prop :=
  (∀ s : State, s.engine.fsm ≠ .disarmed →
    exec .disarm s = .next
      { s with
        engine := { s.engine with fsm := .disarmed, bitssent := 0#3, curByte := 0#8 }
        flags := { s.flags with
          abort := s.flags.abort || (decide (s.engine.fsm = .xfer) && decide (s.engine.bitssent ≠ 0#3)) }
        responses := { err := false, data := 0#32 } :: s.responses }) ∧
  (∀ s : State, s.engine.fsm = .disarmed → exec .disarm s = .next (s.answered 0#32)) ∧
  (∀ s t : State, exec .disarm s = .next t → exec .tick t = .next t) ∧
  SpelledZ 0x41#8 .disarm

/-- R109, R129, R130 and R131: `WRSEED`, `WRCFG`, `WRGAP` write their register and nothing else (neither `crc` nor `gap_cnt`) and are
refused while armed; `WRCFG` is refused too when `c[7:5]` is not 0; `WRSIDE` writes `side` in every state; their encodings. -/
def Obligations.ConfigurationWrites : Prop :=
  (∀ (s : State) (v : BitVec 16), s.engine.fsm = .disarmed →
    exec (.wrseed v) s = .next
      { s with crc := { s.crc with seed := v }, responses := { err := false, data := 0#32 } :: s.responses }) ∧
  (∀ (s : State) (c : Byte), s.engine.fsm = .disarmed → c.toNat < 32 →
    exec (.wrcfg c) s = .next
      { s with engine := { s.engine with cfg := c.setWidth 5 }, responses := { err := false, data := 0#32 } :: s.responses }) ∧
  (∀ (s : State) (g : BitVec 24), s.engine.fsm = .disarmed →
    exec (.wrgap g) s = .next
      { s with engine := { s.engine with gapLen := g }, responses := { err := false, data := 0#32 } :: s.responses }) ∧
  (∀ (s : State) (c : Byte),
    exec (.wrside c) s = .next
      { s with engine := { s.engine with side := c }, responses := { err := false, data := 0#32 } :: s.responses }) ∧
  (∀ (s : State) (v : BitVec 16) (c : Byte) (g : BitVec 24), s.engine.fsm ≠ .disarmed →
    exec (.wrseed v) s = .next s.turnedAway ∧ exec (.wrcfg c) s = .next s.turnedAway ∧
      exec (.wrgap g) s = .next s.turnedAway) ∧
  (∀ (s : State) (c : Byte), 32 ≤ c.toNat → exec (.wrcfg c) s = .next s.turnedAway) ∧
  (∀ w : Word, opField w = 0x32#8 →
    decodeWord w = if aField w = 0#8 then some (.wrseed (w.extractLsb' 0 16)) else none) ∧
  (∀ w : Word, opField w = 0x43#8 → decodeWord w = some (.wrgap (w.extractLsb' 0 24))) ∧
  SpelledC 0x42#8 .wrcfg 32 ∧ SpelledC 0x44#8 .wrside 256

/-- R27 and R132: each field of the `STATUS` word, its reserved bits 0; `RDSTATUS` returns it in every state and changes nothing,
the request included; after reset it is 0; its encoding. -/
def Obligations.StatusWordLayout : Prop :=
  (∀ s : State,
    s.statusWord.extractLsb' 0 2 = (match s.engine.fsm with
      | .disarmed => 0#2
      | .gap => 1#2
      | .xfer => 2#2) ∧
    s.statusWord.getLsbD 2 = decide (s.engine.fsm ≠ .disarmed) ∧
    s.statusWord.getLsbD 3 = s.engine.ph ∧
    s.statusWord.getLsbD 4 = decide (s.store.sel = .buf1) ∧
    s.statusWord.extractLsb' 5 2 = (match s.store.refill with
      | none => 0#2
      | some .buf0 => 1#2
      | some .buf1 => 2#2) ∧
    s.statusWord.getLsbD 7 = false ∧
    s.statusWord.extractLsb' 8 8 = s.store.cur ∧
    s.statusWord.extractLsb' 16 3 = s.engine.bitssent ∧
    s.statusWord.getLsbD 19 = false ∧
    s.statusWord.getLsbD 20 = s.flags.underrun ∧
    s.statusWord.getLsbD 21 = s.flags.abort ∧
    s.statusWord.getLsbD 22 = s.flags.cmderr ∧
    s.statusWord.getLsbD 23 = false ∧
    s.statusWord.extractLsb' 24 8 = s.engine.curByte ∧
    exec .rdstatus s = .next (s.answered s.statusWord)) ∧
  State.reset.statusWord = 0#32 ∧
  SpelledZ 0x45#8 .rdstatus

/-- R133, R135, R136 and R138, with R110 and R134: each read command returns its register, zero-extended, in every state, and changes
nothing; `RDCFG` returns `seed`, `side`, three zero bits and `cfg`; their encodings. -/
def Obligations.ReadCommandsReturnTheirRegister : Prop :=
  (∀ s : State,
    exec .rdpos s = .next (s.answered s.engine.pos) ∧
    exec .rdbits s = .next (s.answered s.engine.bitcnt) ∧
    exec .rdgap s = .next (s.answered (s.engine.gapCnt.setWidth 32)) ∧
    exec .rdgaplen s = .next (s.answered (s.engine.gapLen.setWidth 32)) ∧
    exec .rdcrc s = .next (s.answered (s.crc.value.setWidth 32)) ∧
    ∃ v : Word, exec .rdcfg s = .next (s.answered v) ∧
      v.extractLsb' 16 16 = s.crc.seed ∧ v.extractLsb' 8 8 = s.engine.side ∧ v.extractLsb' 5 3 = 0#3 ∧
      v.extractLsb' 0 5 = s.engine.cfg) ∧
  exec .rdcfg State.reset = .next (State.reset.answered 0x00000002#32) ∧
  SpelledZ 0x33#8 .rdcrc ∧ SpelledZ 0x46#8 .rdpos ∧ SpelledZ 0x47#8 .rdbits ∧ SpelledZ 0x48#8 .rdgap ∧
  SpelledZ 0x49#8 .rdcfg ∧ SpelledZ 0x4B#8 .rdgaplen

/-- R137: `CLRERR` clears exactly the sticky flags its mask selects, in every state, and changes nothing else; a mask above 7 is
refused; its encoding. -/
def Obligations.ClrerrClearsSelectedFlags : Prop :=
  (∀ (s : State) (c : Byte), c.toNat < 8 →
    exec (.clrerr c) s = .next
      { s with
        flags :=
          { underrun := if c.getLsbD 0 = true then false else s.flags.underrun
            abort := if c.getLsbD 1 = true then false else s.flags.abort
            cmderr := if c.getLsbD 2 = true then false else s.flags.cmderr }
        responses := { err := false, data := 0#32 } :: s.responses }) ∧
  (∀ (s : State) (c : Byte), 8 ≤ c.toNat → exec (.clrerr c) s = .next s.turnedAway) ∧
  SpelledC 0x4A#8 .clrerr 8

/-! ### TICK -/

/-- R126, with R120: a tick while disarmed changes nothing at all; a high-phase Transferring tick raises the clock line and turns the
phase, and does nothing else, in either direction. -/
def Obligations.TicksWithoutDataAction : Prop :=
  (∀ s : State, s.engine.fsm = .disarmed → exec .tick s = .next s) ∧
  (∀ s : State, s.engine.fsm = .xfer → s.engine.ph = true →
    exec .tick s = .next { s with engine := { s.engine with clkOut := true, ph := false } })

/-- Gap ticks (R121, R122). Under COUNT the counter goes down by one, the phase turns, the clock line takes the phase, and when emitting
the data line toggles; a tick that finds the counter at 0 is processed as a Transferring tick. Under FIRST_ONE a 1 on `P_DATA_IN` in a
low-phase tick ends the gap, and nothing else does; the bit is neither stored nor counted; `gap_cnt` and `data_out` do not change. -/
def Obligations.GapTicks : Prop :=
  (∀ s : State, s.engine.fsm = .gap → s.countsGap = true → s.engine.gapCnt ≠ 0#24 →
    exec .tick s = .next
      { s with
        engine := { s.engine with
          gapCnt := s.engine.gapCnt - 1#24
          dataOut := if s.engine.cfg.getLsbD 0 = true then s.engine.dataOut else !s.engine.dataOut
          clkOut := s.engine.ph
          ph := !s.engine.ph } }) ∧
  (∀ s : State, s.engine.fsm = .gap → s.countsGap = true → s.engine.gapCnt = 0#24 →
    exec .tick s = exec .tick { s with engine := { s.engine with fsm := .xfer } }) ∧
  (∀ s : State, s.engine.fsm = .gap → s.countsGap = false →
    exec .tick s = .next
      { s with
        engine := { s.engine with
          fsm := if s.engine.ph = false ∧ s.pins.dataIn = true then .xfer else .gap
          clkOut := s.engine.ph
          ph := !s.engine.ph } })

/-- R124, with R123 and R117: a low-phase Transferring tick in EMIT direction drives the bit of `cur_byte` that the bit order names and
counts it; with the eighth bit the byte is fed to the CRC if enabled, counted, and the next one fetched under the cursor, which moves
on. -/
def Obligations.EmitTickDrivesOneBit : Prop :=
  ∀ s : State, s.engine.fsm = .xfer → s.engine.ph = false → s.engine.cfg.getLsbD 0 = false →
    (s.engine.bitssent ≠ 7#3 →
      exec .tick s = .next
        { s with
          engine := { s.engine with
            dataOut := s.engine.curByte.getLsbD
              (if s.engine.cfg.getLsbD 1 = true then 7 - s.engine.bitssent.toNat else s.engine.bitssent.toNat)
            bitcnt := s.engine.bitcnt + 1#32
            bitssent := s.engine.bitssent + 1#3
            clkOut := false
            ph := true } }) ∧
    (s.engine.bitssent = 7#3 →
      exec .tick s = .next
        { s.stepCursor with
          crc := { s.crc with
            value := if s.engine.cfg.getLsbD 4 = true then crcUpdate s.crc.value s.engine.curByte else s.crc.value }
          engine := { s.engine with
            dataOut := s.engine.curByte.getLsbD (if s.engine.cfg.getLsbD 1 = true then 0 else 7)
            bitcnt := s.engine.bitcnt + 1#32
            bitssent := 0#3
            pos := s.engine.pos + 1#32
            curByte := s.store.ram.read s.cursorAddr
            clkOut := false
            ph := true } })

/-- R125, with R123 and R117: a low-phase Transferring tick in CAPTURE direction puts the level of `P_DATA_IN` into the bit of
`cur_byte` that the bit order names and counts it; with the eighth bit the byte is fed to the CRC if enabled, counted, stored under the
cursor, which moves on, and `cur_byte` is 0 again. `data_out` is not changed. -/
def Obligations.CaptureTickSamplesOneBit : Prop :=
  ∀ s : State, s.engine.fsm = .xfer → s.engine.ph = false → s.engine.cfg.getLsbD 0 = true →
    (s.engine.bitssent ≠ 7#3 →
      ∃ v : Byte,
        exec .tick s = .next
          { s with
            engine := { s.engine with
              curByte := v
              bitcnt := s.engine.bitcnt + 1#32
              bitssent := s.engine.bitssent + 1#3
              clkOut := false
              ph := true } } ∧
        ∀ k, k < 8 →
          v.getLsbD k =
            if k = (if s.engine.cfg.getLsbD 2 = true then 7 - s.engine.bitssent.toNat else s.engine.bitssent.toNat)
            then s.pins.dataIn else s.engine.curByte.getLsbD k) ∧
    (s.engine.bitssent = 7#3 →
      ∃ (v : Byte) (t : State),
        exec .tick s = .next t ∧
        (∀ k, k < 8 →
          v.getLsbD k =
            if k = (if s.engine.cfg.getLsbD 2 = true then 0 else 7) then s.pins.dataIn else s.engine.curByte.getLsbD k) ∧
        t.store.ram.read s.cursorAddr = v ∧
        (∀ a, a ≠ s.cursorAddr → t.store.ram.read a = s.store.ram.read a) ∧
        t = { s.stepCursor with
              store := { s.stepCursor.store with ram := t.store.ram }
              crc := { s.crc with
                value := if s.engine.cfg.getLsbD 4 = true then crcUpdate s.crc.value v else s.crc.value }
              engine := { s.engine with
                bitcnt := s.engine.bitcnt + 1#32
                bitssent := 0#3
                pos := s.engine.pos + 1#32
                curByte := 0#8
                clkOut := false
                ph := true } })

/-- What a tick writes (R168): never a signal register, the configuration, `side`, `abort`, `cmderr` or a response; no byte of the
buffer that is not active, and no byte at all when emitting; `crc` only when `CRC_EN` is 1. -/
def Obligations.TickWritesOnlyItsFields : Prop :=
  ∀ s t : State, exec .tick s = .next t →
    t.signals = s.signals ∧ t.engine.cfg = s.engine.cfg ∧ t.engine.gapLen = s.engine.gapLen ∧ t.engine.side = s.engine.side ∧
    t.crc.seed = s.crc.seed ∧ t.flags.abort = s.flags.abort ∧ t.flags.cmderr = s.flags.cmderr ∧
    t.pins = s.pins ∧ t.inputs = s.inputs ∧ t.responses = s.responses ∧
    (∀ k : BitVec 8, t.store.ram.read (ramAddr s.store.sel.other k) = s.store.ram.read (ramAddr s.store.sel.other k)) ∧
    (s.engine.cfg.getLsbD 0 = false → ∀ a, t.store.ram.read a = s.store.ram.read a) ∧
    (s.engine.cfg.getLsbD 4 = false → t.crc.value = s.crc.value)

/-! ### Sessions over many ticks -/

/-- R121: with `gap_cnt` = G under COUNT the engine stays in the gap for exactly G ticks, whatever the buffers hold: after each of
them it reads `GAP`, with the counter gone down by one a tick and no data moved; tick G+1 finds it at `XFER`. -/
def Obligations.GapLastsExactlyItsTicks : Prop :=
  ∀ (s : State) (n : Nat), s.engine.fsm = .gap → s.countsGap = true → n ≤ s.engine.gapCnt.toNat →
    ∃ t, runTicks n s = .next t ∧
      t.engine.fsm = .gap ∧ t.engine.gapCnt.toNat = s.engine.gapCnt.toNat - n ∧
      t.engine.ph = (s.engine.ph ^^ decide (n % 2 = 1)) ∧
      t.engine.dataOut = (s.engine.dataOut ^^ (decide (n % 2 = 1) && !s.engine.cfg.getLsbD 0)) ∧
      t.store = s.store ∧ t.crc = s.crc ∧ t.flags = s.flags ∧
      t.engine.bitssent = s.engine.bitssent ∧ t.engine.curByte = s.engine.curByte ∧
      t.engine.pos = s.engine.pos ∧ t.engine.bitcnt = s.engine.bitcnt ∧
      (n = s.engine.gapCnt.toNat → ∃ u, exec .tick t = .next u ∧ u.engine.fsm = .xfer)

/-- R139: the waveform of an EMIT session of `n` ticks with no host command: the clock line shows the phase of the tick, the data line
toggles through the gap and then carries the bytes of the buffers in order, bit by bit in the order `EMIT_MSB` names, each bit held
from its low-phase tick on; and the counters that go with it. -/
def Obligations.EmitWaveform : Prop :=
  ∀ (s : State) (n : Nat), s.engine.fsm = .disarmed → s.engine.cfg.getLsbD 0 = false →
    ∃ a u, exec .arm s = .next a ∧ runTicks n a = .next u ∧
      u.engine.ph = decide (n % 2 = 1) ∧
      u.engine.clkOut = (decide (0 < n) && decide (n % 2 = 0)) ∧
      (n ≤ s.engine.gapLen.toNat → u.engine.fsm = .gap ∧ u.engine.dataOut = decide (n % 2 = 1)) ∧
      (s.engine.gapLen.toNat < n →
        let m := bitsMoved s.engine.gapLen.toNat n
        let byteAt := fun j => s.store.ram.read (j % 512)
        u.engine.fsm = .xfer ∧
        u.engine.dataOut =
          (if m = 0 then decide (s.engine.gapLen.toNat % 2 = 1)
           else (byteAt ((m - 1) / 8)).getLsbD (if s.engine.cfg.getLsbD 1 = true then 7 - (m - 1) % 8 else (m - 1) % 8)) ∧
        u.engine.bitssent.toNat = m % 8 ∧ u.engine.curByte = byteAt (m / 8) ∧
        u.engine.pos = BitVec.ofNat 32 (m / 8) ∧ u.engine.bitcnt = BitVec.ofNat 32 m)

/-- R140: when the refill requests of a session are posted, with a counted gap and no `CONSUME`: emitting, the accesses made are one
more than the bytes completed, because `ARM` fetched the first byte; capturing, as many; the cursor, the request and `underrun` follow
from their number as R102 says. -/
def Obligations.RefillRequestsOfASession : Prop :=
  ∀ (s : State) (n : Nat), s.engine.fsm = .disarmed → s.countsGap = true →
    ∃ a u, exec .arm s = .next a ∧ runTicks n a = .next u ∧
      let p := bitsMoved s.engine.gapLen.toNat n / 8 + (if s.engine.cfg.getLsbD 0 = true then 0 else 1)
      u.store.cur.toNat = p % 256 ∧ u.store.sel.index = p / 256 % 2 ∧
      u.store.refill = requestAfter p ∧ u.flags.underrun = (s.flags.underrun || decide (512 ≤ p))

/-- R186: after the tick that posts the request for buffer A, the engine touches `A[i]` next in the tick 16*(257 + i) later: one tick
before that it is at the last bit of a byte with the cursor on `A[i]`, and at no earlier tick; the other buffer is requested 4096 ticks
after the post, with `underrun` set if the request for A was not consumed. -/
def Obligations.RefillDeadlines : Prop :=
  ∀ (s : State) (A : BufId),
    s.engine.fsm = .xfer → s.engine.ph = true → s.engine.bitssent = 0#3 → s.store.cur = 0#8 → s.store.sel = A.other →
    (∀ i : Nat, i < 256 →
      (∃ u, runTicks (16 * (257 + i) - 1) s = .next u ∧
        u.engine.fsm = .xfer ∧ u.engine.ph = false ∧ u.engine.bitssent = 7#3 ∧ u.store.sel = A ∧ u.store.cur.toNat = i) ∧
      (∀ n, n + 1 < 16 * (257 + i) →
        ∃ v, runTicks n s = .next v ∧
          ¬ (v.engine.ph = false ∧ v.engine.bitssent = 7#3 ∧ v.store.sel = A ∧ v.store.cur.toNat = i))) ∧
    (∃ u, runTicks 4095 s = .next u ∧ u.store.refill = s.store.refill ∧ u.flags.underrun = s.flags.underrun) ∧
    (∃ u, runTicks 4096 s = .next u ∧ u.store.refill = some A.other ∧
      u.flags.underrun = (s.flags.underrun || s.store.refill.isSome))

/-- R43 and R125: eight bit-cells on `P_DATA_IN` that carry a byte in the order `CAP_MSB` names, run step by step with the pin changes
between the ticks, put that byte into the RAM under the cursor, feed it to the CRC if enabled and count it; no other byte changes. -/
def Obligations.CaptureAssemblesAByte : Prop :=
  ∀ (s : State) (v : Byte) (rest : List EnvStep),
    s.engine.fsm = .xfer → s.engine.ph = false → s.engine.bitssent = 0#3 → s.engine.cfg.getLsbD 0 = true →
    s.inputs = cellsOf s.pins (s.engine.cfg.getLsbD 2) v ++ rest →
    ∃ t, runSteps 24 s = .next t ∧
      t.inputs = rest ∧
      t.store.ram.read s.cursorAddr = v ∧ (∀ a, a ≠ s.cursorAddr → t.store.ram.read a = s.store.ram.read a) ∧
      t.store.cur = s.stepCursor.store.cur ∧ t.store.sel = s.stepCursor.store.sel ∧
      t.store.refill = s.stepCursor.store.refill ∧ t.flags = s.stepCursor.flags ∧
      t.crc.value = (if s.engine.cfg.getLsbD 4 = true then crcUpdate s.crc.value v else s.crc.value) ∧
      t.engine.fsm = .xfer ∧ t.engine.ph = false ∧ t.engine.bitssent = 0#3 ∧ t.engine.curByte = 0#8 ∧
      t.engine.pos = s.engine.pos + 1#32 ∧ t.engine.bitcnt = s.engine.bitcnt + 8#32 ∧
      t.engine.dataOut = s.engine.dataOut ∧ t.signals = s.signals ∧ t.responses = s.responses

/-! ### Invariants -/

/-- Every step keeps the RAM in canonical form: addresses strictly rising, none above 511. -/
def Obligations.StepKeepsRamCanonical : Prop :=
  ∀ s t : State, RamCanonical s → step s = .next t → RamCanonical t

/-- Every step keeps: a pending request names the buffer that is not active (R92, last sentence). -/
def Obligations.StepKeepsRequestNamesVacated : Prop :=
  ∀ s t : State, RequestNamesVacated s → step s = .next t → RequestNamesVacated t

/-- Every step keeps the session counters in agreement: in `XFER` `bitcnt` = 8*`pos` + `bitssent` modulo 2^32, in the gap all three are
0, disarmed no byte is in flight (R134, R121, R128). -/
def Obligations.StepKeepsCountersAgree : Prop :=
  ∀ s t : State, CountersAgree s → step s = .next t → CountersAgree t

/-- Every step keeps: while capturing, `data_out` is 0 and the bits of `cur_byte` not yet sampled are 0 (R10, R121, R125). -/
def Obligations.StepKeepsCaptureClean : Prop :=
  ∀ s t : State, CaptureClean s → step s = .next t → CaptureClean t

/-- The state after reset that a run starts from is what `RESET` leaves of it, and meets the four invariants. It is the model's choice
(log 2, log 3, log 6) that nothing is presented in it, no response given and no RAM byte listed. -/
def Obligations.ResetStateMeetsInvariants : Prop :=
  exec .reset State.reset = .next State.reset ∧
  State.reset.store.ram = [] ∧ State.reset.inputs = [] ∧ State.reset.responses = [] ∧
  RamCanonical State.reset ∧ RequestNamesVacated State.reset ∧ CountersAgree State.reset ∧ CaptureClean State.reset

/-! ### Rules of the whole machine -/

/-- The only transitions of the engine state (R18, R116): `DISARMED` to `GAP` by `ARM`, `GAP` to `XFER` by `TICK`, any to `DISARMED` by
`DISARM` or `RESET`. -/
def Obligations.EngineStateTransitions : Prop :=
  ∀ (i : Instr) (s t : State), exec i s = .next t →
    t.engine.fsm = s.engine.fsm ∨
    (i = .arm ∧ s.engine.fsm = .disarmed ∧ t.engine.fsm = .gap) ∨
    (i = .tick ∧ s.engine.fsm = .gap ∧ t.engine.fsm = .xfer) ∨
    ((i = .disarm ∨ i = .reset) ∧ t.engine.fsm = .disarmed)

/-- What commands write of the engine's own fields (R168, R190): while armed, no command changes the configuration, the gap length, the
seed, the phase, the gap counter, the counters, the lines, the selector or the cursor; only `DISARM` changes the bit counter or the
byte in flight; only `CONSUME` the request; only `CRCRST` and `CRCUPD` the accumulator, and those only with `CRC_EN` = 0. -/
def Obligations.CommandsLeaveEngineFieldsWhileArmed : Prop :=
  ∀ (i : Instr) (s t : State), s.engine.fsm ≠ .disarmed → isEvent i = false → exec i s = .next t →
    t.engine.cfg = s.engine.cfg ∧ t.engine.gapLen = s.engine.gapLen ∧ t.crc.seed = s.crc.seed ∧
    t.engine.ph = s.engine.ph ∧ t.engine.gapCnt = s.engine.gapCnt ∧ t.engine.pos = s.engine.pos ∧
    t.engine.bitcnt = s.engine.bitcnt ∧ t.engine.dataOut = s.engine.dataOut ∧ t.engine.clkOut = s.engine.clkOut ∧
    t.store.sel = s.store.sel ∧ t.store.cur = s.store.cur ∧
    (i ≠ .disarm → t.engine.bitssent = s.engine.bitssent ∧ t.engine.curByte = s.engine.curByte) ∧
    (i ≠ .consume → t.store.refill = s.store.refill) ∧
    (s.engine.cfg.getLsbD 4 = true → t.crc = s.crc) ∧
    (i ≠ .crcrst → (∀ c, i ≠ .crcupd c) → t.crc = s.crc)

/-- A sticky flag that is set stays set until `RESET` or a `CLRERR` that selects it (R22, R170), and each is set only by the operations
R160 names. -/
def Obligations.StickyFlagsStaySet : Prop :=
  (∀ (i : Instr) (s t : State) (e : Event), exec i s = .next t → s.flags.get e = true → i ≠ .reset →
    (∀ c : Byte, i = .clrerr c → c.getLsbD e.code = false) → t.flags.get e = true) ∧
  (∀ (i : Instr) (s t : State), exec i s = .next t → s.flags.underrun = false → t.flags.underrun = true →
    i = .tick ∨ i = .pull ∨ ∃ c, i = .push c) ∧
  (∀ (i : Instr) (s t : State), exec i s = .next t → s.flags.abort = false → t.flags.abort = true → i = .disarm) ∧
  (∀ (i : Instr) (s t : State), exec i s = .next t → s.flags.cmderr = false → t.flags.cmderr = true → t = s.turnedAway)

/-- No rule of the block reads a sticky flag (R22): two runs of one operation that differ in the flags alone differ afterwards in
nothing but the flags, and in the response of `RDSTATUS`. -/
def Obligations.StickyFlagsAreNeverRead : Prop :=
  ∀ (i : Instr) (s t : State) (f : Flags), exec i s = .next t →
    ∃ u, exec i { s with flags := f } = .next u ∧
      u.signals = t.signals ∧ u.store = t.store ∧ u.crc = t.crc ∧ u.engine = t.engine ∧ u.pins = t.pins ∧ u.inputs = t.inputs ∧
      (i ≠ .rdstatus → u.responses = t.responses)

/-- The engine neither reads nor writes a handshake signal or `side` (R80, R14): a tick does the same whatever the signal registers,
the handshake pins and `side` hold, and leaves them as they are. -/
def Obligations.TickIgnoresHandshakeAndSide : Prop :=
  ∀ (s t : State) (g : Signals) (p : Pins) (d : Byte), exec .tick s = .next t → p.dataIn = s.pins.dataIn →
    exec .tick { s with signals := g, pins := p, engine := { s.engine with side := d } } =
      .next { t with signals := g, pins := p, engine := { t.engine with side := d } }

/-! ### Reset -/

/-- R180: `RESET` gives every register the value of its table and leaves the RAM, in every state and without `ABORT`; no response; it
beats a tick and a command presented at the same instant, which are dropped without a response; the views after it, and a tick after it
changes nothing. -/
def Obligations.ResetRestoresEveryRegister : Prop :=
  (∀ s : State, ∃ t, exec .reset s = .next t ∧
    t = { signals :=
            { mediaSet := false, motorOn := false, ready := false, rwMedia := false
              stopMotor := false, scanMedia := false, writeEnable := false }
          store := { ram := s.store.ram, sel := .buf0, cur := 0#8, refill := none }
          crc := { value := 0#16, seed := 0#16 }
          engine :=
            { fsm := .disarmed, ph := false, bitssent := 0#3, curByte := 0#8, gapCnt := 0#24, gapLen := 0#24
              pos := 0#32, bitcnt := 0#32, side := 0#8, cfg := 0b00010#5, dataOut := false, clkOut := false }
          flags := { underrun := false, abort := false, cmderr := false }
          pins := s.pins
          inputs := s.inputs
          responses := s.responses } ∧
    exec .tick t = .next t ∧
    exec .rdstatus t = .next (t.answered 0#32) ∧ exec .rdsigs t = .next (t.answered 0#32) ∧
    exec .rdcfg t = .next (t.answered 2#32) ∧ exec .rdcrc t = .next (t.answered 0#32) ∧
    exec .rdpos t = .next (t.answered 0#32) ∧ exec .rdbits t = .next (t.answered 0#32) ∧
    exec .rdgap t = .next (t.answered 0#32) ∧ exec .rdgaplen t = .next (t.answered 0#32) ∧
    exec .consume t = .next (t.answered 0#32)) ∧
  (∀ (s : State) (tick : Bool) (cmd : Option Word) (rest : List EnvStep),
    s.inputs = .present { rst := true, tick := tick, cmd := cmd } :: rest → step s = exec .reset { s with inputs := rest })

/-! ### The Transfer Controller -/

/-- Steps 1 to 6 of R150 for the host agent of log 9 (a DESIGN CHOICE), with nothing between the commands of one call: `ready` becomes scan AND the `motor_on` of before the call; `motor_on` falls when
a session is stopped, rises when one is started, and stays otherwise; the result is busy exactly when a session runs afterwards; no request is pending afterwards (step 7). -/
def Obligations.CtrlPollSettlesSignalsAndSession : Prop :=
  ∀ h : HostAgent, h.between = [] → h.machine.inputs = [] →
    let stop := !h.machine.pins.stopMotor
    let scan := !h.machine.pins.scanMedia
    let active := h.machine.armed
    let r := h.ctrlPoll
    r.2.machine.signals.ready = (scan && h.machine.signals.motorOn) ∧
    r.2.machine.signals.motorOn =
      (if active && stop then false else if !stop && scan && !active then true else h.machine.signals.motorOn) ∧
    r.2.machine.armed = (if active then !stop else !stop && scan) ∧
    (r.1 = .busy ↔ r.2.machine.armed = true) ∧
    r.2.machine.store.refill = none

/-- R152, for the host agent and its lists of what falls between commands of log 9 (a DESIGN CHOICE): whatever ticks and pin changes
fall between the commands of a `CTRL_POLL` call, none of its commands is refused. The call adds at least the four responses of `POLL`,
`RDSTATUS`, `SETSIG` and `CONSUME`, every response it adds has `err` = 0, and `cmderr` is as before. -/
def Obligations.CtrlPollIsNeverRefused : Prop :=
  ∀ h : HostAgent, (∀ es ∈ h.between, ∀ e ∈ es, e.quiet = true) → h.machine.inputs = [] →
    (∃ rs : List Response, h.ctrlPoll.2.machine.responses = rs ++ h.machine.responses ∧
      4 ≤ rs.length ∧ ∀ r ∈ rs, r.err = false) ∧
    h.ctrlPoll.2.machine.flags.cmderr = h.machine.flags.cmderr

/-- What the two buffers hold after one `CTRL_POLL` call of the host agent of log 9 (a DESIGN CHOICE), with nothing between its commands.
A call that starts an EMIT session has put the next two blocks into buffers 0 and 1 before `ARM` fetched the first byte (R150 step 4,
R151); starting a CAPTURE session moves no byte. Any other call puts the next block into the buffer of the pending request, or stores
that buffer's 256 bytes, and without a request moves nothing (R150 step 7). Bytes a short block does not give stay as they were (R163),
and past the end of the list of blocks a block is empty (a DESIGN CHOICE, log 16). -/
def Obligations.CtrlPollMovesTheBuffers : Prop :=
  ∀ h : HostAgent, h.between = [] → h.machine.inputs = [] →
    let before := h.machine.store.ram.read
    let starts := h.machine.pins.stopMotor && !h.machine.pins.scanMedia && !h.machine.armed
    let capture := h.machine.engine.cfg.getLsbD 0
    let t := h.ctrlPoll.2
    let after := t.machine.store.ram.read
    (starts = true → capture = false →
      (∀ i, i < 256 → after i = ((h.source.headD [])[i]?).getD (before i)) ∧
      (∀ i, i < 256 → after (256 + i) = (((h.source.drop 1).headD [])[i]?).getD (before (256 + i))) ∧
      t.machine.engine.curByte = after 0 ∧ t.source = h.source.drop 2 ∧ t.stored = h.stored) ∧
    (starts = true → capture = true → (∀ a, after a = before a) ∧ t.source = h.source ∧ t.stored = h.stored) ∧
    (∀ b, starts = false → h.machine.store.refill = some b → capture = false →
      (∀ i, i < 256 → after (256 * b.index + i) = ((h.source.headD [])[i]?).getD (before (256 * b.index + i))) ∧
      (∀ a, a < 256 * b.index ∨ 256 * b.index + 256 ≤ a → after a = before a) ∧
      t.source = h.source.drop 1 ∧ t.stored = h.stored) ∧
    (∀ b, starts = false → h.machine.store.refill = some b → capture = true →
      (∀ a, after a = before a) ∧ t.source = h.source ∧
      t.stored = ((List.range 256).map fun i => before (256 * b.index + i)) :: h.stored) ∧
    (starts = false → h.machine.store.refill = none →
      (∀ a, after a = before a) ∧ t.source = h.source ∧ t.stored = h.stored)
end

