-- ==== Sys2Proof/Laws/Memory.lean ====
section
/-!
SUPPORT. The buffer RAM: a read after a write, and the canonical form, which every memory operation keeps.
-/

namespace Sys2Proof.Machine

@[simp] theorem Memory.lookup_nil (a : Nat) : Memory.lookup [] a = none := rfl

@[simp] theorem Memory.read_nil (a : Nat) : Memory.read [] a = Config.powerUpByte a := rfl

theorem Memory.lookup_write_same (m : Memory) (a : Nat) (v : Byte) : (m.write a v).lookup a = some v := by
  induction m with
  | nil => simp [Memory.write, Memory.lookup]
  | cons cell m ih =>
    obtain ⟨b, w⟩ := cell
    simp only [Memory.write]
    split
    · simp [Memory.lookup]
    · split
      · simp [Memory.lookup]
      · rename_i h
        simp [Memory.lookup, h, ih]

theorem Memory.lookup_write_other (m : Memory) {a x : Nat} (v : Byte) (h : x ≠ a) :
    (m.write a v).lookup x = m.lookup x := by
  induction m with
  | nil => simp [Memory.write, Memory.lookup, h]
  | cons cell m ih =>
    obtain ⟨b, w⟩ := cell
    simp only [Memory.write]
    split
    · simp [Memory.lookup, h]
    · split
      · rename_i hab
        subst hab
        simp [Memory.lookup, h]
      · simp [Memory.lookup, ih]

/-- A read after a write to the same address gives the byte written. -/
@[simp] theorem Memory.read_write_same (m : Memory) (a : Nat) (v : Byte) : (m.write a v).read a = v := by
  simp [Memory.read, Memory.lookup_write_same]

/-- A write leaves every other address alone. -/
theorem Memory.read_write_other (m : Memory) {a x : Nat} (v : Byte) (h : x ≠ a) :
    (m.write a v).read x = m.read x := by
  simp [Memory.read, Memory.lookup_write_other m v h]

/-- What a write does, at every address. -/
theorem Memory.read_write (m : Memory) (a x : Nat) (v : Byte) :
    (m.write a v).read x = if x = a then v else m.read x := by
  split
  · next h => subst h; exact Memory.read_write_same m x v
  · next h => exact Memory.read_write_other m v h

/-- An address above a lower bound, if there is one. -/
def aboveBound : Option Nat → Nat → Prop
  | none, _ => True
  | some lo, a => lo < a

theorem Memory.risingFrom_cons (lo : Option Nat) (b : Nat) (w : Byte) (m : Memory) :
    Memory.risingFrom lo ((b, w) :: m) = true ↔ aboveBound lo b ∧ Memory.risingFrom (some b) m = true := by
  cases lo <;> simp [Memory.risingFrom, aboveBound]

/-- Writing keeps the addresses strictly rising. -/
theorem Memory.risingFrom_write (m : Memory) (lo : Option Nat) (a : Nat) (v : Byte)
    (ha : aboveBound lo a) (h : Memory.risingFrom lo m = true) : Memory.risingFrom lo (m.write a v) = true := by
  induction m generalizing lo with
  | nil => simpa [Memory.write, Memory.risingFrom_cons, Memory.risingFrom] using ha
  | cons cell m ih =>
    obtain ⟨b, w⟩ := cell
    rw [Memory.risingFrom_cons] at h
    simp only [Memory.write]
    split
    · next hab =>
      rw [Memory.risingFrom_cons, Memory.risingFrom_cons]
      exact ⟨ha, hab, h.2⟩
    · split
      · next hab =>
        subst hab
        rw [Memory.risingFrom_cons]
        exact h
      · rw [Memory.risingFrom_cons]
        refine ⟨h.1, ih (some b) ?_ h.2⟩
        simp only [aboveBound]
        omega

/-- Writing keeps every address below a bound. -/
theorem Memory.all_write (m : Memory) (n a : Nat) (v : Byte) (ha : a < n)
    (h : (m.all fun cell => decide (cell.1 < n)) = true) :
    ((m.write a v).all fun cell => decide (cell.1 < n)) = true := by
  induction m with
  | nil => simpa [Memory.write] using ha
  | cons cell m ih =>
    obtain ⟨b, w⟩ := cell
    simp only [List.all_cons, Bool.and_eq_true, decide_eq_true_eq] at h
    simp only [Memory.write]
    split
    · simp only [List.all_cons, Bool.and_eq_true, decide_eq_true_eq]
      exact ⟨ha, h.1, h.2⟩
    · split
      · simp only [List.all_cons, Bool.and_eq_true, decide_eq_true_eq]
        exact ⟨ha, h.2⟩
      · simp only [List.all_cons, Bool.and_eq_true, decide_eq_true_eq]
        exact ⟨h.1, ih h.2⟩

/-- The only operation that changes the RAM keeps its canonical form at every address of the RAM. -/
theorem Memory.wf_write (m : Memory) (a : Nat) (v : Byte) (ha : a < 512) (h : m.wf = true) :
    (m.write a v).wf = true := by
  simp only [Memory.wf, Bool.and_eq_true] at h ⊢
  exact ⟨Memory.risingFrom_write m none a v trivial h.1, Memory.all_write m _ a v ha h.2⟩

/-- Every address formed from a buffer and an index is an address of the RAM (R40). -/
theorem ramAddr_lt (b : BufId) (i : BitVec 8) : ramAddr b i < 512 := by
  have := i.isLt
  cases b <;> simp [ramAddr, BufId.index, Config.bufferSize] <;> omega

/-- Two bytes of the RAM have one address only when they are the same byte. -/
theorem ramAddr_inj {b c : BufId} {i k : BitVec 8} (h : ramAddr b i = ramAddr c k) : b = c ∧ i = k := by
  have hi := i.isLt
  have hk := k.isLt
  cases b <;> cases c <;> simp [ramAddr, BufId.index, Config.bufferSize] at h ⊢
  · exact BitVec.eq_of_toNat_eq h
  · omega
  · omega
  · exact BitVec.eq_of_toNat_eq h

/-- The RAM with nothing written is in canonical form. -/
theorem reset_ram_wf : State.reset.store.ram.wf = true := by decide

end Sys2Proof.Machine
end

