-- ==== Sys2Proof/Laws/State.lean ====
section
/-!
SUPPORT. One lemma per field per update of `State`, so that no proof unfolds a record update: for the eight updates of one part,
for raising and acknowledging an event, for a response and a refusal, and for the engine's small updates.
-/

namespace Sys2Proof.Machine

@[simp] theorem State.withSignals_signals (s : State) (x : Signals) : (s.withSignals x).signals = x := rfl
@[simp] theorem State.withSignals_store (s : State) (x : Signals) : (s.withSignals x).store = s.store := rfl
@[simp] theorem State.withSignals_crc (s : State) (x : Signals) : (s.withSignals x).crc = s.crc := rfl
@[simp] theorem State.withSignals_engine (s : State) (x : Signals) : (s.withSignals x).engine = s.engine := rfl
@[simp] theorem State.withSignals_flags (s : State) (x : Signals) : (s.withSignals x).flags = s.flags := rfl
@[simp] theorem State.withSignals_pins (s : State) (x : Signals) : (s.withSignals x).pins = s.pins := rfl
@[simp] theorem State.withSignals_inputs (s : State) (x : Signals) : (s.withSignals x).inputs = s.inputs := rfl
@[simp] theorem State.withSignals_responses (s : State) (x : Signals) : (s.withSignals x).responses = s.responses := rfl

@[simp] theorem State.withStore_signals (s : State) (x : Store) : (s.withStore x).signals = s.signals := rfl
@[simp] theorem State.withStore_store (s : State) (x : Store) : (s.withStore x).store = x := rfl
@[simp] theorem State.withStore_crc (s : State) (x : Store) : (s.withStore x).crc = s.crc := rfl
@[simp] theorem State.withStore_engine (s : State) (x : Store) : (s.withStore x).engine = s.engine := rfl
@[simp] theorem State.withStore_flags (s : State) (x : Store) : (s.withStore x).flags = s.flags := rfl
@[simp] theorem State.withStore_pins (s : State) (x : Store) : (s.withStore x).pins = s.pins := rfl
@[simp] theorem State.withStore_inputs (s : State) (x : Store) : (s.withStore x).inputs = s.inputs := rfl
@[simp] theorem State.withStore_responses (s : State) (x : Store) : (s.withStore x).responses = s.responses := rfl

@[simp] theorem State.withCrc_signals (s : State) (x : Crc) : (s.withCrc x).signals = s.signals := rfl
@[simp] theorem State.withCrc_store (s : State) (x : Crc) : (s.withCrc x).store = s.store := rfl
@[simp] theorem State.withCrc_crc (s : State) (x : Crc) : (s.withCrc x).crc = x := rfl
@[simp] theorem State.withCrc_engine (s : State) (x : Crc) : (s.withCrc x).engine = s.engine := rfl
@[simp] theorem State.withCrc_flags (s : State) (x : Crc) : (s.withCrc x).flags = s.flags := rfl
@[simp] theorem State.withCrc_pins (s : State) (x : Crc) : (s.withCrc x).pins = s.pins := rfl
@[simp] theorem State.withCrc_inputs (s : State) (x : Crc) : (s.withCrc x).inputs = s.inputs := rfl
@[simp] theorem State.withCrc_responses (s : State) (x : Crc) : (s.withCrc x).responses = s.responses := rfl

@[simp] theorem State.withEngine_signals (s : State) (x : Engine) : (s.withEngine x).signals = s.signals := rfl
@[simp] theorem State.withEngine_store (s : State) (x : Engine) : (s.withEngine x).store = s.store := rfl
@[simp] theorem State.withEngine_crc (s : State) (x : Engine) : (s.withEngine x).crc = s.crc := rfl
@[simp] theorem State.withEngine_engine (s : State) (x : Engine) : (s.withEngine x).engine = x := rfl
@[simp] theorem State.withEngine_flags (s : State) (x : Engine) : (s.withEngine x).flags = s.flags := rfl
@[simp] theorem State.withEngine_pins (s : State) (x : Engine) : (s.withEngine x).pins = s.pins := rfl
@[simp] theorem State.withEngine_inputs (s : State) (x : Engine) : (s.withEngine x).inputs = s.inputs := rfl
@[simp] theorem State.withEngine_responses (s : State) (x : Engine) : (s.withEngine x).responses = s.responses := rfl

@[simp] theorem State.withFlags_signals (s : State) (x : Flags) : (s.withFlags x).signals = s.signals := rfl
@[simp] theorem State.withFlags_store (s : State) (x : Flags) : (s.withFlags x).store = s.store := rfl
@[simp] theorem State.withFlags_crc (s : State) (x : Flags) : (s.withFlags x).crc = s.crc := rfl
@[simp] theorem State.withFlags_engine (s : State) (x : Flags) : (s.withFlags x).engine = s.engine := rfl
@[simp] theorem State.withFlags_flags (s : State) (x : Flags) : (s.withFlags x).flags = x := rfl
@[simp] theorem State.withFlags_pins (s : State) (x : Flags) : (s.withFlags x).pins = s.pins := rfl
@[simp] theorem State.withFlags_inputs (s : State) (x : Flags) : (s.withFlags x).inputs = s.inputs := rfl
@[simp] theorem State.withFlags_responses (s : State) (x : Flags) : (s.withFlags x).responses = s.responses := rfl

@[simp] theorem State.withPins_signals (s : State) (x : Pins) : (s.withPins x).signals = s.signals := rfl
@[simp] theorem State.withPins_store (s : State) (x : Pins) : (s.withPins x).store = s.store := rfl
@[simp] theorem State.withPins_crc (s : State) (x : Pins) : (s.withPins x).crc = s.crc := rfl
@[simp] theorem State.withPins_engine (s : State) (x : Pins) : (s.withPins x).engine = s.engine := rfl
@[simp] theorem State.withPins_flags (s : State) (x : Pins) : (s.withPins x).flags = s.flags := rfl
@[simp] theorem State.withPins_pins (s : State) (x : Pins) : (s.withPins x).pins = x := rfl
@[simp] theorem State.withPins_inputs (s : State) (x : Pins) : (s.withPins x).inputs = s.inputs := rfl
@[simp] theorem State.withPins_responses (s : State) (x : Pins) : (s.withPins x).responses = s.responses := rfl

@[simp] theorem State.withInputs_signals (s : State) (x : List EnvStep) : (s.withInputs x).signals = s.signals := rfl
@[simp] theorem State.withInputs_store (s : State) (x : List EnvStep) : (s.withInputs x).store = s.store := rfl
@[simp] theorem State.withInputs_crc (s : State) (x : List EnvStep) : (s.withInputs x).crc = s.crc := rfl
@[simp] theorem State.withInputs_engine (s : State) (x : List EnvStep) : (s.withInputs x).engine = s.engine := rfl
@[simp] theorem State.withInputs_flags (s : State) (x : List EnvStep) : (s.withInputs x).flags = s.flags := rfl
@[simp] theorem State.withInputs_pins (s : State) (x : List EnvStep) : (s.withInputs x).pins = s.pins := rfl
@[simp] theorem State.withInputs_inputs (s : State) (x : List EnvStep) : (s.withInputs x).inputs = x := rfl
@[simp] theorem State.withInputs_responses (s : State) (x : List EnvStep) : (s.withInputs x).responses = s.responses := rfl

@[simp] theorem State.withResponses_signals (s : State) (x : List Response) : (s.withResponses x).signals = s.signals := rfl
@[simp] theorem State.withResponses_store (s : State) (x : List Response) : (s.withResponses x).store = s.store := rfl
@[simp] theorem State.withResponses_crc (s : State) (x : List Response) : (s.withResponses x).crc = s.crc := rfl
@[simp] theorem State.withResponses_engine (s : State) (x : List Response) : (s.withResponses x).engine = s.engine := rfl
@[simp] theorem State.withResponses_flags (s : State) (x : List Response) : (s.withResponses x).flags = s.flags := rfl
@[simp] theorem State.withResponses_pins (s : State) (x : List Response) : (s.withResponses x).pins = s.pins := rfl
@[simp] theorem State.withResponses_inputs (s : State) (x : List Response) : (s.withResponses x).inputs = s.inputs := rfl
@[simp] theorem State.withResponses_responses (s : State) (x : List Response) : (s.withResponses x).responses = x := rfl

@[simp] theorem State.raise_signals (s : State) (e : Event) : (s.raise e).signals = s.signals := rfl
@[simp] theorem State.raise_store (s : State) (e : Event) : (s.raise e).store = s.store := rfl
@[simp] theorem State.raise_crc (s : State) (e : Event) : (s.raise e).crc = s.crc := rfl
@[simp] theorem State.raise_engine (s : State) (e : Event) : (s.raise e).engine = s.engine := rfl
@[simp] theorem State.raise_flags (s : State) (e : Event) : (s.raise e).flags = s.flags.set e := rfl
@[simp] theorem State.raise_pins (s : State) (e : Event) : (s.raise e).pins = s.pins := rfl
@[simp] theorem State.raise_inputs (s : State) (e : Event) : (s.raise e).inputs = s.inputs := rfl
@[simp] theorem State.raise_responses (s : State) (e : Event) : (s.raise e).responses = s.responses := rfl

@[simp] theorem State.acknowledge_signals (s : State) (m : Byte) : (s.acknowledge m).signals = s.signals := rfl
@[simp] theorem State.acknowledge_store (s : State) (m : Byte) : (s.acknowledge m).store = s.store := rfl
@[simp] theorem State.acknowledge_crc (s : State) (m : Byte) : (s.acknowledge m).crc = s.crc := rfl
@[simp] theorem State.acknowledge_engine (s : State) (m : Byte) : (s.acknowledge m).engine = s.engine := rfl
@[simp] theorem State.acknowledge_flags (s : State) (m : Byte) : (s.acknowledge m).flags = s.flags.clear m := rfl
@[simp] theorem State.acknowledge_pins (s : State) (m : Byte) : (s.acknowledge m).pins = s.pins := rfl
@[simp] theorem State.acknowledge_inputs (s : State) (m : Byte) : (s.acknowledge m).inputs = s.inputs := rfl
@[simp] theorem State.acknowledge_responses (s : State) (m : Byte) : (s.acknowledge m).responses = s.responses := rfl

@[simp] theorem State.respond_signals (s : State) (r : Response) : (s.respond r).signals = s.signals := rfl
@[simp] theorem State.respond_store (s : State) (r : Response) : (s.respond r).store = s.store := rfl
@[simp] theorem State.respond_crc (s : State) (r : Response) : (s.respond r).crc = s.crc := rfl
@[simp] theorem State.respond_engine (s : State) (r : Response) : (s.respond r).engine = s.engine := rfl
@[simp] theorem State.respond_flags (s : State) (r : Response) : (s.respond r).flags = s.flags := rfl
@[simp] theorem State.respond_pins (s : State) (r : Response) : (s.respond r).pins = s.pins := rfl
@[simp] theorem State.respond_inputs (s : State) (r : Response) : (s.respond r).inputs = s.inputs := rfl
@[simp] theorem State.respond_responses (s : State) (r : Response) : (s.respond r).responses = r :: s.responses := rfl

@[simp] theorem State.rsp_signals (s : State) (v : Word) : (s.rsp v).signals = s.signals := rfl
@[simp] theorem State.rsp_store (s : State) (v : Word) : (s.rsp v).store = s.store := rfl
@[simp] theorem State.rsp_crc (s : State) (v : Word) : (s.rsp v).crc = s.crc := rfl
@[simp] theorem State.rsp_engine (s : State) (v : Word) : (s.rsp v).engine = s.engine := rfl
@[simp] theorem State.rsp_flags (s : State) (v : Word) : (s.rsp v).flags = s.flags := rfl
@[simp] theorem State.rsp_pins (s : State) (v : Word) : (s.rsp v).pins = s.pins := rfl
@[simp] theorem State.rsp_inputs (s : State) (v : Word) : (s.rsp v).inputs = s.inputs := rfl
@[simp] theorem State.rsp_responses (s : State) (v : Word) : (s.rsp v).responses = { err := false, data := v } :: s.responses := rfl

@[simp] theorem State.refuse_signals (s : State) : (s.refuse).signals = s.signals := rfl
@[simp] theorem State.refuse_store (s : State) : (s.refuse).store = s.store := rfl
@[simp] theorem State.refuse_crc (s : State) : (s.refuse).crc = s.crc := rfl
@[simp] theorem State.refuse_engine (s : State) : (s.refuse).engine = s.engine := rfl
@[simp] theorem State.refuse_flags (s : State) : (s.refuse).flags = { s.flags with cmderr := true } := rfl
@[simp] theorem State.refuse_pins (s : State) : (s.refuse).pins = s.pins := rfl
@[simp] theorem State.refuse_inputs (s : State) : (s.refuse).inputs = s.inputs := rfl
@[simp] theorem State.refuse_responses (s : State) : (s.refuse).responses = { err := true, data := 0#32 } :: s.responses := rfl

@[simp] theorem State.setFsm_signals (s : State) (f : Fsm) : (s.setFsm f).signals = s.signals := rfl
@[simp] theorem State.setFsm_store (s : State) (f : Fsm) : (s.setFsm f).store = s.store := rfl
@[simp] theorem State.setFsm_crc (s : State) (f : Fsm) : (s.setFsm f).crc = s.crc := rfl
@[simp] theorem State.setFsm_engine (s : State) (f : Fsm) : (s.setFsm f).engine = { s.engine with fsm := f } := rfl
@[simp] theorem State.setFsm_flags (s : State) (f : Fsm) : (s.setFsm f).flags = s.flags := rfl
@[simp] theorem State.setFsm_pins (s : State) (f : Fsm) : (s.setFsm f).pins = s.pins := rfl
@[simp] theorem State.setFsm_inputs (s : State) (f : Fsm) : (s.setFsm f).inputs = s.inputs := rfl
@[simp] theorem State.setFsm_responses (s : State) (f : Fsm) : (s.setFsm f).responses = s.responses := rfl

@[simp] theorem State.togglePhase_signals (s : State) : (s.togglePhase).signals = s.signals := rfl
@[simp] theorem State.togglePhase_store (s : State) : (s.togglePhase).store = s.store := rfl
@[simp] theorem State.togglePhase_crc (s : State) : (s.togglePhase).crc = s.crc := rfl
@[simp] theorem State.togglePhase_engine (s : State) : (s.togglePhase).engine = { s.engine with ph := !s.engine.ph } := rfl
@[simp] theorem State.togglePhase_flags (s : State) : (s.togglePhase).flags = s.flags := rfl
@[simp] theorem State.togglePhase_pins (s : State) : (s.togglePhase).pins = s.pins := rfl
@[simp] theorem State.togglePhase_inputs (s : State) : (s.togglePhase).inputs = s.inputs := rfl
@[simp] theorem State.togglePhase_responses (s : State) : (s.togglePhase).responses = s.responses := rfl

@[simp] theorem State.strobeClock_signals (s : State) : (s.strobeClock).signals = s.signals := rfl
@[simp] theorem State.strobeClock_store (s : State) : (s.strobeClock).store = s.store := rfl
@[simp] theorem State.strobeClock_crc (s : State) : (s.strobeClock).crc = s.crc := rfl
@[simp] theorem State.strobeClock_engine (s : State) : (s.strobeClock).engine = { s.engine with clkOut := s.engine.ph } := rfl
@[simp] theorem State.strobeClock_flags (s : State) : (s.strobeClock).flags = s.flags := rfl
@[simp] theorem State.strobeClock_pins (s : State) : (s.strobeClock).pins = s.pins := rfl
@[simp] theorem State.strobeClock_inputs (s : State) : (s.strobeClock).inputs = s.inputs := rfl
@[simp] theorem State.strobeClock_responses (s : State) : (s.strobeClock).responses = s.responses := rfl

@[simp] theorem State.crcReload_signals (s : State) : (s.crcReload).signals = s.signals := rfl
@[simp] theorem State.crcReload_store (s : State) : (s.crcReload).store = s.store := rfl
@[simp] theorem State.crcReload_crc (s : State) : (s.crcReload).crc = { s.crc with value := s.crc.seed } := rfl
@[simp] theorem State.crcReload_engine (s : State) : (s.crcReload).engine = s.engine := rfl
@[simp] theorem State.crcReload_flags (s : State) : (s.crcReload).flags = s.flags := rfl
@[simp] theorem State.crcReload_pins (s : State) : (s.crcReload).pins = s.pins := rfl
@[simp] theorem State.crcReload_inputs (s : State) : (s.crcReload).inputs = s.inputs := rfl
@[simp] theorem State.crcReload_responses (s : State) : (s.crcReload).responses = s.responses := rfl

@[simp] theorem State.crcFeed_signals (s : State) (b : Byte) : (s.crcFeed b).signals = s.signals := rfl
@[simp] theorem State.crcFeed_store (s : State) (b : Byte) : (s.crcFeed b).store = s.store := rfl
@[simp] theorem State.crcFeed_crc (s : State) (b : Byte) : (s.crcFeed b).crc = { s.crc with value := crcUpdate s.crc.value b } := rfl
@[simp] theorem State.crcFeed_engine (s : State) (b : Byte) : (s.crcFeed b).engine = s.engine := rfl
@[simp] theorem State.crcFeed_flags (s : State) (b : Byte) : (s.crcFeed b).flags = s.flags := rfl
@[simp] theorem State.crcFeed_pins (s : State) (b : Byte) : (s.crcFeed b).pins = s.pins := rfl
@[simp] theorem State.crcFeed_inputs (s : State) (b : Byte) : (s.crcFeed b).inputs = s.inputs := rfl
@[simp] theorem State.crcFeed_responses (s : State) (b : Byte) : (s.crcFeed b).responses = s.responses := rfl

@[simp] theorem State.setBufByte_signals (s : State) (b : BufId) (i : BitVec 8) (v : Byte) : (s.setBufByte b i v).signals = s.signals := rfl
@[simp] theorem State.setBufByte_store (s : State) (b : BufId) (i : BitVec 8) (v : Byte) : (s.setBufByte b i v).store = { s.store with ram := s.store.ram.write (ramAddr b i) v } := rfl
@[simp] theorem State.setBufByte_crc (s : State) (b : BufId) (i : BitVec 8) (v : Byte) : (s.setBufByte b i v).crc = s.crc := rfl
@[simp] theorem State.setBufByte_engine (s : State) (b : BufId) (i : BitVec 8) (v : Byte) : (s.setBufByte b i v).engine = s.engine := rfl
@[simp] theorem State.setBufByte_flags (s : State) (b : BufId) (i : BitVec 8) (v : Byte) : (s.setBufByte b i v).flags = s.flags := rfl
@[simp] theorem State.setBufByte_pins (s : State) (b : BufId) (i : BitVec 8) (v : Byte) : (s.setBufByte b i v).pins = s.pins := rfl
@[simp] theorem State.setBufByte_inputs (s : State) (b : BufId) (i : BitVec 8) (v : Byte) : (s.setBufByte b i v).inputs = s.inputs := rfl
@[simp] theorem State.setBufByte_responses (s : State) (b : BufId) (i : BitVec 8) (v : Byte) : (s.setBufByte b i v).responses = s.responses := rfl

@[simp] theorem State.resetBlock_signals (s : State) : (s.resetBlock).signals = Signals.reset := rfl
@[simp] theorem State.resetBlock_store (s : State) : (s.resetBlock).store = { ram := s.store.ram, sel := .buf0, cur := 0x00#8, refill := none } := rfl
@[simp] theorem State.resetBlock_crc (s : State) : (s.resetBlock).crc = Crc.reset := rfl
@[simp] theorem State.resetBlock_engine (s : State) : (s.resetBlock).engine = Engine.reset := rfl
@[simp] theorem State.resetBlock_flags (s : State) : (s.resetBlock).flags = Flags.reset := rfl
@[simp] theorem State.resetBlock_pins (s : State) : (s.resetBlock).pins = s.pins := rfl
@[simp] theorem State.resetBlock_inputs (s : State) : (s.resetBlock).inputs = s.inputs := rfl
@[simp] theorem State.resetBlock_responses (s : State) : (s.resetBlock).responses = s.responses := rfl

end Sys2Proof.Machine
end

