-- ==== Sys2Proof/Laws/Ops.lean ====
section
/-!
SUPPORT. For each shared operation one lemma that says everything it does, for proofs to cite instead of unfolding it.
-/

namespace Sys2Proof.Machine

/-! ### Operand forms -/

theorem Signal.ofId_eq_some (a : Byte) (g : Signal) : Signal.ofId a = some g ↔ a.toNat = g.id := by
  constructor
  · unfold Signal.ofId
    split <;> intro h <;> simp_all [Signal.id] <;> subst h <;> simp [OutSig.id, InSig.id]
  · intro h
    unfold Signal.ofId
    rw [h]
    cases g with
    | out o => cases o <;> rfl
    | inp i => cases i <;> rfl

theorem Signal.ofId_eq_none (a : Byte) : Signal.ofId a = none ↔ 6 < a.toNat := by
  unfold Signal.ofId
  split <;> simp_all
  omega

theorem OutSig.ofId_eq_some (a : Byte) (o : OutSig) : OutSig.ofId a = some o ↔ a.toNat = o.id := by
  rw [show o.id = (Signal.out o).id from rfl, ← Signal.ofId_eq_some]
  unfold OutSig.ofId
  split <;> simp_all

theorem OutSig.ofId_eq_none (a : Byte) : OutSig.ofId a = none ↔ 3 < a.toNat := by
  unfold OutSig.ofId Signal.ofId
  split <;> split at * <;> simp_all
  omega

theorem levelOf_eq_some (c : Byte) (v : Bool) : levelOf c = some v ↔ c.toNat = v.toNat := by
  unfold levelOf
  split <;> cases v <;> simp_all

theorem levelOf_eq_none (c : Byte) : levelOf c = none ↔ 1 < c.toNat := by
  unfold levelOf
  split <;> simp_all
  omega

theorem BufId.ofId_eq_some (a : Byte) (b : BufId) : BufId.ofId a = some b ↔ a.toNat = b.index := by
  unfold BufId.ofId
  split <;> cases b <;> simp_all [BufId.index]

theorem BufId.ofId_eq_none (a : Byte) : BufId.ofId a = none ↔ 1 < a.toNat := by
  unfold BufId.ofId
  split <;> simp_all
  omega

@[simp] theorem BufId.other_other (b : BufId) : b.other.other = b := by cases b <;> rfl

theorem BufId.other_ne (b : BufId) : b.other ≠ b := by cases b <;> decide

theorem BufId.other_eq_ite (b : BufId) : b.other = if b = .buf0 then .buf1 else .buf0 := by cases b <;> rfl

/-- Writing a signal register changes that register only (R82). -/
theorem Signals.get_setOut (r : Signals) (o : OutSig) (v : Bool) (g : Signal) :
    (r.setOut o v).get g = if g = .out o then v else r.get g := by
  cases g with
  | out p => cases o <;> cases p <;> rfl
  | inp p => cases o <;> cases p <;> rfl

/-- Replacing a bit of a byte changes that bit only. -/
theorem getLsbD_setBit (v : Byte) (i k : Nat) (b : Bool) (hi : i < 8) (hk : k < 8) :
    (setBit v i b).getLsbD k = if k = i then b else v.getLsbD k := by
  unfold setBit
  cases b <;> interval_cases i <;> interval_cases k <;> simp

/-! ### Tests of the state -/

theorem State.armed_iff (s : State) : s.armed = true ↔ s.engine.fsm ≠ .disarmed := by simp [State.armed]

theorem State.crcOwned_iff (s : State) :
    s.crcOwned = true ↔ s.engine.fsm ≠ .disarmed ∧ s.engine.cfg.getLsbD 4 = true := by
  simp [State.crcOwned, State.armed, Engine.crcEn, crcEnOf]

theorem Engine.dir_eq_capture (e : Engine) : e.dir = .capture ↔ e.cfg.getLsbD 0 = true := by
  unfold Engine.dir dirOf
  split <;> simp_all

theorem Engine.dir_eq_emit (e : Engine) : e.dir = .emit ↔ e.cfg.getLsbD 0 = false := by
  unfold Engine.dir dirOf
  split <;> simp_all

theorem Engine.gapPolicy_eq_firstOne (e : Engine) : e.gapPolicy = .firstOne ↔ e.cfg.getLsbD 3 = true := by
  unfold Engine.gapPolicy gapPolicyOf
  split <;> simp_all

/-! ### Events and responses -/

theorem Flags.get_set (f : Flags) (e e' : Event) : (f.set e).get e' = (decide (e' = e) || f.get e') := by
  cases e <;> cases e' <;> rfl

theorem Flags.get_clear (f : Flags) (m : Byte) (e : Event) : (f.clear m).get e = (f.get e && !m.getLsbD e.code) := by
  cases e <;> rfl

theorem State.rsp_spec (s : State) (v : Word) : s.rsp v = s.answered v := rfl

theorem State.refuse_spec (s : State) : s.refuse = s.turnedAway := rfl

/-! ### The engine port of the Double Buffer Store -/

theorem ramAddr_cursor (s : State) : ramAddr s.store.sel s.store.cur = s.cursorAddr := by
  unfold ramAddr State.cursorAddr
  cases s.store.sel <;> simp [BufId.index, Config.bufferSize]

/-- `advance()` (R92). -/
theorem State.advance_spec (s : State) : s.advance = s.stepCursor := by
  have hwrap : s.store.cur + 1#8 = 0#8 ↔ s.store.cur = 255#8 := by bv_omega
  unfold State.advance State.stepCursor
  by_cases hw : s.store.cur = 255#8 <;> by_cases hr : s.store.refill = none <;>
    simp [hwrap, hw, hr, BufId.other_eq_ite, State.withStore, State.raise, State.withFlags, Flags.set, Option.isSome_iff_ne_none]

/-- `push(v)` (R93). -/
theorem State.push_spec (s : State) (v : Byte) :
    s.push v =
      { s.stepCursor with store := { s.stepCursor.store with ram := s.store.ram.write s.cursorAddr v } } := by
  unfold State.push
  rw [State.advance_spec, State.setBufByte, ramAddr_cursor]
  unfold State.stepCursor
  by_cases h : s.store.cur = 255#8 <;> simp [State.withStore, h]

/-- `pull()` (R94). -/
theorem State.pull_spec (s : State) : s.pull = (s.store.ram.read s.cursorAddr, s.stepCursor) := by
  simp [State.pull, State.bufByte, ramAddr_cursor, State.advance_spec]

/-- The parts a cursor step leaves alone. -/
@[simp] theorem State.stepCursor_signals (s : State) : s.stepCursor.signals = s.signals := by
  unfold State.stepCursor; split <;> rfl
@[simp] theorem State.stepCursor_crc (s : State) : s.stepCursor.crc = s.crc := by
  unfold State.stepCursor; split <;> rfl
@[simp] theorem State.stepCursor_engine (s : State) : s.stepCursor.engine = s.engine := by
  unfold State.stepCursor; split <;> rfl
@[simp] theorem State.stepCursor_pins (s : State) : s.stepCursor.pins = s.pins := by
  unfold State.stepCursor; split <;> rfl
@[simp] theorem State.stepCursor_inputs (s : State) : s.stepCursor.inputs = s.inputs := by
  unfold State.stepCursor; split <;> rfl
@[simp] theorem State.stepCursor_responses (s : State) : s.stepCursor.responses = s.responses := by
  unfold State.stepCursor; split <;> rfl
@[simp] theorem State.stepCursor_ram (s : State) : s.stepCursor.store.ram = s.store.ram := by
  unfold State.stepCursor; split <;> rfl
@[simp] theorem State.stepCursor_abort (s : State) : s.stepCursor.flags.abort = s.flags.abort := by
  unfold State.stepCursor; split <;> rfl
@[simp] theorem State.stepCursor_cmderr (s : State) : s.stepCursor.flags.cmderr = s.flags.cmderr := by
  unfold State.stepCursor; split <;> rfl

/-- A cursor step of a state whose other parts were replaced. -/
theorem State.stepCursor_of_parts (s : State) (c : Crc) (e : Engine) :
    ({ s with crc := c, engine := e } : State).stepCursor = { s.stepCursor with crc := c, engine := e } := by
  unfold State.stepCursor
  by_cases h : s.store.cur = 255#8 <;> simp [h]

/-- The address under the cursor does not depend on the other parts. -/
@[simp] theorem State.cursorAddr_of_parts (s : State) (c : Crc) (e : Engine) :
    ({ s with crc := c, engine := e } : State).cursorAddr = s.cursorAddr := rfl

/-! ### The engine -/

/-- `byte_done(completed)` (R123). -/
theorem State.byteDone_spec (s : State) (b : Byte) :
    s.byteDone b =
      { s with
        crc := { s.crc with value := if s.engine.cfg.getLsbD 4 = true then crcUpdate s.crc.value b else s.crc.value }
        engine := { s.engine with bitssent := 0#3, pos := s.engine.pos + 1#32 } } := by
  unfold State.byteDone
  cases h : s.engine.cfg.getLsbD 4 <;>
    simp [-BitVec.getLsbD_eq_getElem, Engine.crcEn, crcEnOf, h, State.withEngine, State.crcFeed, State.withCrc]

/-- `gap_count()` (R121). -/
theorem State.gapCount_spec (s : State) :
    s.gapCount =
      { s with
        engine := { s.engine with
          gapCnt := s.engine.gapCnt - 1#24
          dataOut := if s.engine.cfg.getLsbD 0 = true then s.engine.dataOut else !s.engine.dataOut } } := by
  unfold State.gapCount
  cases h : s.engine.cfg.getLsbD 0 <;>
    simp [-BitVec.getLsbD_eq_getElem, Engine.dir, dirOf, h, State.withEngine]

/-- `gap_first_one(low)` (R122). -/
theorem State.gapFirstOne_spec (s : State) (low : Bool) :
    s.gapFirstOne low =
      { s with
        engine := { s.engine with fsm := if low = true ∧ s.pins.dataIn = true then .xfer else s.engine.fsm } } := by
  unfold State.gapFirstOne
  cases low <;> cases h : s.pins.dataIn <;> simp [State.setFsm, State.withEngine]

/-- `bit_emit()` (R124): a bit that does not complete its byte, and the eighth. -/
theorem State.bitEmit_spec (s : State) :
    s.bitEmit =
      if s.engine.bitssent = 7#3 then
        { s.stepCursor with
          crc := { s.crc with
            value := if s.engine.cfg.getLsbD 4 = true then crcUpdate s.crc.value s.engine.curByte else s.crc.value }
          engine := { s.engine with
            dataOut := s.engine.curByte.getLsbD (widx s.engine.bitssent (s.engine.cfg.getLsbD 1))
            bitcnt := s.engine.bitcnt + 1#32
            bitssent := 0#3
            pos := s.engine.pos + 1#32
            curByte := s.store.ram.read s.cursorAddr } }
      else
        { s with
          engine := { s.engine with
            dataOut := s.engine.curByte.getLsbD (widx s.engine.bitssent (s.engine.cfg.getLsbD 1))
            bitcnt := s.engine.bitcnt + 1#32
            bitssent := s.engine.bitssent + 1#3 } } := by
  unfold State.bitEmit
  by_cases h : s.engine.bitssent = 7#3
  · simp only [h, ↓reduceIte, State.byteDone_spec, State.pull_spec, State.withEngine, State.stepCursor_of_parts,
      State.cursorAddr_of_parts, emitMsbOf]
  · simp only [h, ↓reduceIte, State.withEngine, emitMsbOf]

/-- `bit_capture()` (R125): a bit that does not complete its byte, and the eighth. -/
theorem State.bitCapture_spec (s : State) :
    s.bitCapture =
      let v := setBit s.engine.curByte (widx s.engine.bitssent (s.engine.cfg.getLsbD 2)) s.pins.dataIn
      if s.engine.bitssent = 7#3 then
        { s.stepCursor with
          store := { s.stepCursor.store with ram := s.store.ram.write s.cursorAddr v }
          crc := { s.crc with value := if s.engine.cfg.getLsbD 4 = true then crcUpdate s.crc.value v else s.crc.value }
          engine := { s.engine with
            bitcnt := s.engine.bitcnt + 1#32
            bitssent := 0#3
            pos := s.engine.pos + 1#32
            curByte := 0#8 } }
      else
        { s with
          engine := { s.engine with
            curByte := v
            bitcnt := s.engine.bitcnt + 1#32
            bitssent := s.engine.bitssent + 1#3 } } := by
  unfold State.bitCapture
  by_cases h : s.engine.bitssent = 7#3
  · simp only [h, ↓reduceIte, State.byteDone_spec, State.push_spec, State.withEngine, State.stepCursor_of_parts,
      State.cursorAddr_of_parts, capMsbOf]
  · simp only [h, ↓reduceIte, State.withEngine, capMsbOf]

/-- The data action of a Transferring tick (R120, R126). -/
theorem State.transfer_spec (s : State) (low : Bool) :
    s.transfer low =
      if low = true then (if s.engine.cfg.getLsbD 0 = true then s.bitCapture else s.bitEmit) else s := by
  unfold State.transfer
  cases h : s.engine.cfg.getLsbD 0 <;>
    simp [-BitVec.getLsbD_eq_getElem, Engine.dir, dirOf, h]

/-- `TICK` in its three states (R120). -/
theorem State.tick_spec (s : State) :
    (s.engine.fsm = .disarmed ∧ s.tick = s) ∨
    (s.engine.fsm = .gap ∧ s.countsGap = false ∧ s.tick = (s.strobeClock.gapFirstOne (!s.engine.ph)).togglePhase) ∨
    (s.engine.fsm = .gap ∧ s.countsGap = true ∧ s.engine.gapCnt ≠ 0#24 ∧ s.tick = s.strobeClock.gapCount.togglePhase) ∨
    (s.engine.fsm = .gap ∧ s.countsGap = true ∧ s.engine.gapCnt = 0#24 ∧
      s.tick = ((s.strobeClock.setFsm .xfer).transfer (!s.engine.ph)).togglePhase) ∨
    (s.engine.fsm = .xfer ∧ s.tick = (s.strobeClock.transfer (!s.engine.ph)).togglePhase) := by
  unfold State.tick
  cases hf : s.engine.fsm with
  | disarmed => simp
  | xfer => simp
  | gap =>
    cases h0 : s.engine.cfg.getLsbD 0 <;> cases h3 : s.engine.cfg.getLsbD 3 <;> by_cases hg : s.engine.gapCnt = 0#24 <;>
      simp [-BitVec.getLsbD_eq_getElem, State.gapTick, State.countsGap, Engine.dir, dirOf, Engine.gapPolicy, gapPolicyOf, h0, h3, hg]

/-- The state a session starts from (R127), before `fsm` moves. -/
theorem State.startSession_spec (s : State) :
    s.startSession =
      { s with
        store := { s.store with
          sel := .buf0, cur := if s.engine.cfg.getLsbD 0 = true then 0#8 else 1#8, refill := none }
        crc := { s.crc with value := s.crc.seed }
        engine := { s.engine with
          bitssent := 0#3, ph := false
          curByte := if s.engine.cfg.getLsbD 0 = true then 0#8 else s.store.ram.read 0
          gapCnt := s.engine.gapLen, pos := 0#32, bitcnt := 0#32, dataOut := false, clkOut := false } } := by
  unfold State.startSession
  cases h : s.engine.cfg.getLsbD 0 <;>
    simp [-BitVec.getLsbD_eq_getElem, Engine.dir, dirOf, h, State.withEngine, State.withStore, State.crcReload, State.withCrc, State.pull_spec,
      State.stepCursor, State.cursorAddr]

/-- The end of a session (R128). -/
theorem State.endSession_spec (s : State) :
    s.endSession =
      { s with
        engine := { s.engine with fsm := .disarmed, bitssent := 0#3, curByte := 0#8 }
        flags := { s.flags with
          abort := s.flags.abort || (decide (s.engine.fsm = .xfer) && decide (s.engine.bitssent ≠ 0#3)) } } := by
  unfold State.endSession
  by_cases h : s.engine.fsm = .xfer <;> by_cases h' : s.engine.bitssent = 0#3 <;>
    simp [h, h', State.withEngine, State.raise, State.withFlags, Flags.set]

/-! ### The ports -/

/-- What is taken from the ports next (R46, R47, R180). -/
theorem fetch_spec (s : State) :
    (s.inputs = [] ∧ fetch s = .idle) ∨
    (∃ p rest, s.inputs = .pins p :: rest ∧ fetch s = .environment ((s.withPins p).withInputs rest)) ∨
    (∃ p rest, s.inputs = .present p :: rest ∧ p.rst = true ∧ fetch s = .operation .rstStrobe (s.withInputs rest)) ∨
    (∃ p rest, s.inputs = .present p :: rest ∧ p.rst = false ∧ p.tick = true ∧
      fetch s = .operation .tickStrobe (s.withInputs (p.afterTick ++ rest))) ∨
    (∃ p rest w, s.inputs = .present p :: rest ∧ p.rst = false ∧ p.tick = false ∧ p.cmd = some w ∧
      fetch s = .operation (.word w) (s.withInputs rest)) ∨
    (∃ p rest, s.inputs = .present p :: rest ∧ p.rst = false ∧ p.tick = false ∧ p.cmd = none ∧
      fetch s = .environment (s.withInputs rest)) := by
  unfold fetch
  match s.inputs with
  | [] => simp
  | .pins p :: rest => simp
  | .present p :: rest =>
    obtain ⟨r, t, c⟩ := p
    cases r <;> cases t <;> cases c <;> simp [arbitrate]

/-- A step is the environment's, or an operation, or a word that no row matches (R60, R65). -/
theorem step_spec (s : State) :
    (step s = .next s ∧ s.inputs = []) ∨
    (∃ t, fetch s = .environment t ∧ step s = .next t) ∨
    (∃ r t i, fetch s = .operation r t ∧ decode r = some i ∧ step s = exec i t) ∨
    (∃ r t, fetch s = .operation r t ∧ decode r = none ∧ step s = .next t.refuse) := by
  unfold step
  cases h : fetch s with
  | idle =>
    refine .inl ⟨rfl, ?_⟩
    rcases fetch_spec s with ⟨h', -⟩ | ⟨p, rest, -, h'⟩ | ⟨p, rest, -, -, h'⟩ | ⟨p, rest, -, -, -, h'⟩ |
      ⟨p, rest, w, -, -, -, -, h'⟩ | ⟨p, rest, -, -, -, -, h'⟩ <;> simp_all
  | environment t => exact .inr (.inl ⟨t, rfl, rfl⟩)
  | operation r t =>
    cases hd : decode r with
    | none => exact .inr (.inr (.inr ⟨r, t, rfl, hd, by simp [dispatched, hd]⟩))
    | some i => exact .inr (.inr (.inl ⟨r, t, i, rfl, hd, by simp [dispatched, hd]⟩))

/-- The operation that `withFetchWord` presents is the very next one. -/
theorem step_withFetchWord (s : State) (nbits w : Nat) (i : Instr) (h : decodeTableWord nbits w = some i) :
    step (s.withFetchWord nbits w) = exec i s := by
  unfold decodeTableWord at h
  unfold State.withFetchWord step
  cases he : tableEncoded nbits w with
  | tickStrobe =>
    rw [he] at h
    simp [State.presentFirst, Presented.ofEncoded, Presented.timer, fetch, arbitrate, dispatched, h, Presented.afterTick,
      State.withInputs]
  | rstStrobe =>
    rw [he] at h
    simp [State.presentFirst, Presented.ofEncoded, Presented.rstOnly, fetch, arbitrate, dispatched, h, State.withInputs]
  | word w =>
    rw [he] at h
    simp [State.presentFirst, Presented.ofEncoded, Presented.command, fetch, arbitrate, dispatched, h, State.withInputs]

end Sys2Proof.Machine
end

