-- ==== Sys2Proof/Laws/Controller.lean ====
section
/-!
SUPPORT. What issuing one command does, when nothing falls between the host's commands, and what the collaborator's next block is.
-/

namespace Sys2Proof.Machine

@[simp] theorem settle_zero (s : State) : settle 0 s = s := rfl

theorem settle_succ {s t : State} (n : Nat) (h : step s = .next t) : settle (n + 1) s = settle n t := by simp [settle, h]

/-- Settling a state with nothing to come leaves it alone (log 4). -/
theorem settle_idle (n : Nat) (s : State) (h : s.inputs = []) : settle n s = s := by
  induction n with
  | zero => rfl
  | succ n ih =>
    have hs : step s = .next s := by simp [step, fetch, h]
    rw [settle_succ n hs, ih]

/-- Issuing one command with nothing between commands: its own effect, its response, and nothing else. -/
theorem HostAgent.issue_spec {h : HostAgent} {i : Instr} {w : Word} {t : State} (hb : h.between = []) (hi : h.machine.inputs = [])
    (he : encode i = .word w) (hd : decodeWord w = some i) (hx : exec i h.machine = .next t) (ht : t.inputs = []) :
    h.issue i = (t.responses.headD { err := true, data := 0#32 }, { h with machine := t }) := by
  have hm : (h.machine.withInputs [.present (Presented.command w)]).withInputs [] = h.machine := by
    simp only [State.withInputs, ← hi]
  have hs : step (h.machine.withInputs [.present (Presented.command w)]) = .next t := by
    have hf : fetch (h.machine.withInputs [.present (Presented.command w)]) = .operation (.word w) h.machine := by
      simp only [fetch, State.withInputs_inputs, arbitrate, hm]
      rfl
    simp [step, hf, dispatched, decode, hd, hx]
  simp [HostAgent.issue, hb, hi, he, Presented.ofEncoded, settle_succ 1 hs, settle_idle 1 t ht]

@[simp] theorem HostAgent.nextBlock_fst (h : HostAgent) : h.nextBlock.1 = h.source.headD [] := rfl
@[simp] theorem HostAgent.nextBlock_snd (h : HostAgent) : h.nextBlock.2 = { h with source := h.source.tail } := rfl

/-- With no block left the collaborator yields the empty block (log 16), and filling from it issues no command. -/
theorem HostAgent.nextBlock_nil (h : HostAgent) (hs : h.source = []) (b : BufId) : fillCommands b h.nextBlock.1 = [] := by
  simp [hs, fillCommands]

end Sys2Proof.Machine
end

