-- ==== Sys2Proof/Laws/Decode.lean ====
section
/-!
SUPPORT. The fields of a packed command word are the fields it was packed from (R62).
-/

namespace Sys2Proof

@[simp] theorem opField_pack (op a b c : Byte) : opField (packFields op a b c) = op := by
  apply BitVec.eq_of_getLsbD_eq
  intro i hi
  simp only [opField, packFields, BitVec.getLsbD_extractLsb', BitVec.getLsbD_append]
  simp [hi, show ¬ (24 + i < 8) by omega, show ¬ (24 + i - 8 < 8) by omega, show ¬ (24 + i - 8 - 8 < 8) by omega, show 24 + i - 8 - 8 - 8 = i by omega]

@[simp] theorem aField_pack (op a b c : Byte) : aField (packFields op a b c) = a := by
  apply BitVec.eq_of_getLsbD_eq
  intro i hi
  simp only [aField, packFields, BitVec.getLsbD_extractLsb', BitVec.getLsbD_append]
  simp [hi, show ¬ (16 + i < 8) by omega, show ¬ (16 + i - 8 < 8) by omega, show 16 + i - 8 - 8 = i by omega]

@[simp] theorem bField_pack (op a b c : Byte) : bField (packFields op a b c) = b := by
  apply BitVec.eq_of_getLsbD_eq
  intro i hi
  simp only [bField, packFields, BitVec.getLsbD_extractLsb', BitVec.getLsbD_append]
  simp [hi, show ¬ (8 + i < 8) by omega, show 8 + i - 8 = i by omega]

@[simp] theorem cField_pack (op a b c : Byte) : cField (packFields op a b c) = c := by
  apply BitVec.eq_of_getLsbD_eq
  intro i hi
  simp only [cField, packFields, BitVec.getLsbD_extractLsb', BitVec.getLsbD_append]
  simp [hi]

@[simp] theorem opField_packImm16 (op : Byte) (v : BitVec 16) : opField (packImm16 op v) = op := by
  apply BitVec.eq_of_getLsbD_eq
  intro i hi
  simp only [opField, packImm16, BitVec.getLsbD_extractLsb', BitVec.getLsbD_append]
  simp [hi, show ¬ (24 + i < 16) by omega, show ¬ (24 + i - 16 < 8) by omega, show 24 + i - 16 - 8 = i by omega]

@[simp] theorem aField_packImm16 (op : Byte) (v : BitVec 16) : aField (packImm16 op v) = 0#8 := by
  apply BitVec.eq_of_getLsbD_eq
  intro i hi
  simp only [aField, packImm16, BitVec.getLsbD_extractLsb', BitVec.getLsbD_append]
  simp [hi]

@[simp] theorem imm16Field_packImm16 (op : Byte) (v : BitVec 16) : imm16Field (packImm16 op v) = v := by
  apply BitVec.eq_of_getLsbD_eq
  intro i hi
  simp only [imm16Field, packImm16, BitVec.getLsbD_extractLsb', BitVec.getLsbD_append]
  simp [hi]

@[simp] theorem opField_packImm24 (op : Byte) (v : BitVec 24) : opField (packImm24 op v) = op := by
  apply BitVec.eq_of_getLsbD_eq
  intro i hi
  simp only [opField, packImm24, BitVec.getLsbD_extractLsb', BitVec.getLsbD_append]
  simp [hi, show ¬ (24 + i < 24) by omega, show 24 + i - 24 = i by omega]

@[simp] theorem imm24Field_packImm24 (op : Byte) (v : BitVec 24) : imm24Field (packImm24 op v) = v := by
  apply BitVec.eq_of_getLsbD_eq
  intro i hi
  simp only [imm24Field, packImm24, BitVec.getLsbD_extractLsb', BitVec.getLsbD_append]
  simp [hi]

/-- A word packed with all operand fields 0 has `CMD[23:0]` = 0 (format Z). -/
@[simp] theorem imm24Field_pack_zero (op : Byte) : imm24Field (packFields op 0#8 0#8 0#8) = 0#24 := by
  apply BitVec.eq_of_getLsbD_eq
  intro i hi
  simp only [imm24Field, packFields, BitVec.getLsbD_extractLsb', BitVec.getLsbD_append]
  simp [hi]
  omega

/-- A word is the packing of its four fields. -/
theorem packFields_fields (w : Word) : packFields (opField w) (aField w) (bField w) (cField w) = w := by
  apply BitVec.eq_of_getLsbD_eq
  intro i hi
  simp only [opField, aField, bField, cField, packFields, BitVec.getLsbD_extractLsb', BitVec.getLsbD_append]
  split
  · simp [*]
  · split
    · simp [*, show 8 + (i - 8) = i by omega]
    · split
      · simp [*, show 16 + (i - 8 - 8) = i by omega]
      · simp [*, show 24 + (i - 8 - 8 - 8) = i by omega, show i - 8 - 8 - 8 < 8 by omega]

end Sys2Proof
end

