-- ==== Sys2Proof/Laws/PerInstr.lean ====
section
/-!
SUPPORT. Statements about every operation as syntax, one lemma per constructor.
-/

namespace Sys2Proof.Laws.EncodedOpcode

/-- The word that encodes a command carries the opcode byte of its row in the table of R64; an event has no word (R69). -/
def Statement (i : Instr) : Prop :=
  ∀ w : Word, encode i = .word w → ∃ v m, i.matchMask = some (v, m) ∧ opField w = opField v

theorem setsig (a : Byte) (c : Byte) : Statement (.setsig a c) := by
  intro w h
  obtain rfl := Encoded.word.inj h
  exact ⟨_, _, rfl, by rw [opField_pack]; decide⟩

theorem rdsig (a : Byte) : Statement (.rdsig a) := by
  intro w h
  obtain rfl := Encoded.word.inj h
  exact ⟨_, _, rfl, by rw [opField_pack]; decide⟩

theorem poll : Statement .poll := by
  intro w h
  obtain rfl := Encoded.word.inj h
  exact ⟨_, _, rfl, by rw [opField_pack]; decide⟩

theorem rdsigs : Statement .rdsigs := by
  intro w h
  obtain rfl := Encoded.word.inj h
  exact ⟨_, _, rfl, by rw [opField_pack]; decide⟩

theorem push (c : Byte) : Statement (.push c) := by
  intro w h
  obtain rfl := Encoded.word.inj h
  exact ⟨_, _, rfl, by rw [opField_pack]; decide⟩

theorem pull : Statement .pull := by
  intro w h
  obtain rfl := Encoded.word.inj h
  exact ⟨_, _, rfl, by rw [opField_pack]; decide⟩

theorem consume : Statement .consume := by
  intro w h
  obtain rfl := Encoded.word.inj h
  exact ⟨_, _, rfl, by rw [opField_pack]; decide⟩

theorem bufwr (a : Byte) (b : Byte) (c : Byte) : Statement (.bufwr a b c) := by
  intro w h
  obtain rfl := Encoded.word.inj h
  exact ⟨_, _, rfl, by rw [opField_pack]; decide⟩

theorem bufrd (a : Byte) (b : Byte) : Statement (.bufrd a b) := by
  intro w h
  obtain rfl := Encoded.word.inj h
  exact ⟨_, _, rfl, by rw [opField_pack]; decide⟩

theorem crcrst : Statement .crcrst := by
  intro w h
  obtain rfl := Encoded.word.inj h
  exact ⟨_, _, rfl, by rw [opField_pack]; decide⟩

theorem crcupd (c : Byte) : Statement (.crcupd c) := by
  intro w h
  obtain rfl := Encoded.word.inj h
  exact ⟨_, _, rfl, by rw [opField_pack]; decide⟩

theorem wrseed (imm16 : BitVec 16) : Statement (.wrseed imm16) := by
  intro w h
  obtain rfl := Encoded.word.inj h
  exact ⟨_, _, rfl, by rw [opField_packImm16]; decide⟩

theorem rdcrc : Statement .rdcrc := by
  intro w h
  obtain rfl := Encoded.word.inj h
  exact ⟨_, _, rfl, by rw [opField_pack]; decide⟩

theorem arm : Statement .arm := by
  intro w h
  obtain rfl := Encoded.word.inj h
  exact ⟨_, _, rfl, by rw [opField_pack]; decide⟩

theorem disarm : Statement .disarm := by
  intro w h
  obtain rfl := Encoded.word.inj h
  exact ⟨_, _, rfl, by rw [opField_pack]; decide⟩

theorem wrcfg (c : Byte) : Statement (.wrcfg c) := by
  intro w h
  obtain rfl := Encoded.word.inj h
  exact ⟨_, _, rfl, by rw [opField_pack]; decide⟩

theorem wrgap (imm24 : BitVec 24) : Statement (.wrgap imm24) := by
  intro w h
  obtain rfl := Encoded.word.inj h
  exact ⟨_, _, rfl, by rw [opField_packImm24]; decide⟩

theorem wrside (c : Byte) : Statement (.wrside c) := by
  intro w h
  obtain rfl := Encoded.word.inj h
  exact ⟨_, _, rfl, by rw [opField_pack]; decide⟩

theorem rdstatus : Statement .rdstatus := by
  intro w h
  obtain rfl := Encoded.word.inj h
  exact ⟨_, _, rfl, by rw [opField_pack]; decide⟩

theorem rdpos : Statement .rdpos := by
  intro w h
  obtain rfl := Encoded.word.inj h
  exact ⟨_, _, rfl, by rw [opField_pack]; decide⟩

theorem rdbits : Statement .rdbits := by
  intro w h
  obtain rfl := Encoded.word.inj h
  exact ⟨_, _, rfl, by rw [opField_pack]; decide⟩

theorem rdgap : Statement .rdgap := by
  intro w h
  obtain rfl := Encoded.word.inj h
  exact ⟨_, _, rfl, by rw [opField_pack]; decide⟩

theorem rdcfg : Statement .rdcfg := by
  intro w h
  obtain rfl := Encoded.word.inj h
  exact ⟨_, _, rfl, by rw [opField_pack]; decide⟩

theorem clrerr (c : Byte) : Statement (.clrerr c) := by
  intro w h
  obtain rfl := Encoded.word.inj h
  exact ⟨_, _, rfl, by rw [opField_pack]; decide⟩

theorem rdgaplen : Statement .rdgaplen := by
  intro w h
  obtain rfl := Encoded.word.inj h
  exact ⟨_, _, rfl, by rw [opField_pack]; decide⟩

theorem tick : Statement .tick := fun _ h => nomatch h

theorem reset : Statement .reset := fun _ h => nomatch h

end Sys2Proof.Laws.EncodedOpcode
end

