-- ==== Sys2Proof/Machine/Assembly.lean ====
section
/-!
DEFINITION. The way this spec writes a command (R71): mnemonic, then operands in field order, separated by commas; signal operands
by name; the field names of a `WRCFG` operand. Nothing of `step` depends on this file.
-/

namespace Sys2Proof.Machine

/-- The name of a signal operand (R71). -/
def Signal.name : Signal → String
  | .out .mediaSet => "media_set"
  | .out .motorOn => "motor_on"
  | .out .ready => "ready"
  | .out .rwMedia => "rw_media"
  | .inp .stopMotor => "stop_motor"
  | .inp .scanMedia => "scan_media"
  | .inp .writeEnable => "write_enable"

/-- The field names of a `WRCFG` operand, with their values (R71). -/
def cfgNames : List (String × Byte) :=
  [("EMIT", 0x00#8), ("CAPTURE", 0x01#8), ("EMIT_MSB", 0x02#8), ("CAP_MSB", 0x04#8),
   ("GAP_FIRST_ONE", 0x08#8), ("CRC_EN", 0x10#8)]

/-- The value of a `WRCFG` operand written as field names joined (R71); an unknown name gives nothing. -/
def cfgOperand : List String → Option Byte
  | [] => some 0#8
  | n :: ns =>
    match cfgNames.lookup n, cfgOperand ns with
    | some v, some w => some (v ||| w)
    | _, _ => none

/-- A numeric operand, in decimal. -/
def numText {n : Nat} (v : BitVec n) : String := toString v.toNat

/-- A signal operand: its name, or the number where it names none. -/
def signalText (a : Byte) : String :=
  match Signal.ofId a with
  | some g => g.name
  | none => numText a

/-- The text of an operation (R71). -/
def instrText : Instr → String
  | .setsig a c => "SETSIG " ++ signalText a ++ ", " ++ numText c
  | .rdsig a => "RDSIG " ++ signalText a
  | .poll => "POLL"
  | .rdsigs => "RDSIGS"
  | .push c => "PUSH " ++ numText c
  | .pull => "PULL"
  | .consume => "CONSUME"
  | .bufwr a b c => "BUFWR " ++ numText a ++ ", " ++ numText b ++ ", " ++ numText c
  | .bufrd a b => "BUFRD " ++ numText a ++ ", " ++ numText b
  | .crcrst => "CRCRST"
  | .crcupd c => "CRCUPD " ++ numText c
  | .wrseed imm16 => "WRSEED " ++ numText imm16
  | .rdcrc => "RDCRC"
  | .arm => "ARM"
  | .disarm => "DISARM"
  | .wrcfg c => "WRCFG " ++ numText c
  | .wrgap imm24 => "WRGAP " ++ numText imm24
  | .wrside c => "WRSIDE " ++ numText c
  | .rdstatus => "RDSTATUS"
  | .rdpos => "RDPOS"
  | .rdbits => "RDBITS"
  | .rdgap => "RDGAP"
  | .rdcfg => "RDCFG"
  | .clrerr c => "CLRERR " ++ numText c
  | .rdgaplen => "RDGAPLEN"
  | .tick => "TICK"
  | .reset => "RESET"

end Sys2Proof.Machine
end

