-- ==== Sys2Proof/Tests/Slice0.lean ====
section
/-!
SUPPORT. The model's own tests. Expected values come from the spec: the tables of 30_encoding.md, and the vectors V-* and programs P*
of 95_test_vectors.md, named in the comments. Then, for each statement of Obligations.lean that has hypotheses, one `witness_`
theorem with concrete values that meet them.
-/

namespace Sys2Proof.Tests

open Sys2Proof.Machine

/-! ### Helpers -/

/-- The response an operation gives, and something read from the state after it. -/
def observe {α : Type} (r : Result) (f : State → α) : Option (Option Response × α) :=
  match r with
  | .next t => some (t.responses.head?, f t)
  | _ => none

/-- Accepted with data `v`. -/
def ok (v : Word) : Option Response := some { err := false, data := v }

/-- Refused. -/
def no : Option Response := some { err := true, data := 0#32 }

/-- The two first bytes of buffer 0 written, as V-ENG-5 and V-ENG-6 do. -/
def filled : State := State.reset.withStore { State.reset.store with ram := [(0, 0xFF#8), (1, 0x00#8)] }

/-- The three flags set. -/
def flagged : State := State.reset.withFlags { underrun := true, abort := true, cmderr := true }

/-- An engine in `XFER` at a low phase, with the bits of `cfg` given. -/
def xferWith (cfg : BitVec 5) (k : BitVec 3) (v : Byte) : State :=
  filled.withEngine { filled.engine with fsm := .xfer, cfg := cfg, bitssent := k, curByte := v, bitcnt := k.setWidth 32 }

/-- An engine in `GAP` with the bits of `cfg` and the gap counter given. -/
def gapWith (cfg : BitVec 5) (g : BitVec 24) : State :=
  filled.withEngine { filled.engine with fsm := .gap, cfg := cfg, gapCnt := g }

/-- The cursor at an index of a buffer, with a request pending or not. -/
def cursorAt (b : BufId) (k : BitVec 8) (r : Option BufId) : State :=
  State.reset.withStore { State.reset.store with sel := b, cur := k, refill := r }

/-- One entry to be presented next. -/
def presenting (e : EnvStep) : State := State.reset.withInputs [e]

/-- One command word to be presented next. -/
def commanded (w : Word) : State := presenting (.present { rst := false, tick := false, cmd := some w })

/-! ### Well-formedness: one ill-formed term for each check, and the bounds -/

theorem test_wf_setsig_id : Instr.wf (.setsig 4#8 0#8) = false ∧ Instr.wf (.setsig 3#8 0#8) = true := by decide
theorem test_wf_setsig_level : Instr.wf (.setsig 0#8 2#8) = false ∧ Instr.wf (.setsig 0#8 1#8) = true := by decide
theorem test_wf_rdsig_id : Instr.wf (.rdsig 7#8) = false ∧ Instr.wf (.rdsig 6#8) = true := by decide
theorem test_wf_bufwr_id : Instr.wf (.bufwr 2#8 0#8 0#8) = false ∧ Instr.wf (.bufwr 1#8 255#8 255#8) = true := by decide
theorem test_wf_bufrd_id : Instr.wf (.bufrd 2#8 0#8) = false ∧ Instr.wf (.bufrd 1#8 255#8) = true := by decide
theorem test_wf_wrcfg_bits : Instr.wf (.wrcfg 32#8) = false ∧ Instr.wf (.wrcfg 31#8) = true := by decide
theorem test_wf_clrerr_bits : Instr.wf (.clrerr 8#8) = false ∧ Instr.wf (.clrerr 7#8) = true := by decide

/-! ### Decoding: one word of every row of the table of R64, the fields written out as op ++ a ++ b ++ c (R62) -/

theorem test_decode_setsig :
    decodeWord (0b00010000#8 ++ 0b00000010#8 ++ 0b00000000#8 ++ 0b00000001#8) = some (.setsig 2#8 1#8) := by decide
theorem test_decode_rdsig :
    decodeWord (0b00010001#8 ++ 0b00000101#8 ++ 0b00000000#8 ++ 0b00000000#8) = some (.rdsig 5#8) := by decide
theorem test_decode_poll :
    decodeWord (0b00010010#8 ++ 0b00000000#8 ++ 0b00000000#8 ++ 0b00000000#8) = some .poll := by decide
theorem test_decode_rdsigs :
    decodeWord (0b00010011#8 ++ 0b00000000#8 ++ 0b00000000#8 ++ 0b00000000#8) = some .rdsigs := by decide
theorem test_decode_push :
    decodeWord (0b00100000#8 ++ 0b00000000#8 ++ 0b00000000#8 ++ 0b11101110#8) = some (.push 0xEE#8) := by decide
theorem test_decode_pull :
    decodeWord (0b00100001#8 ++ 0b00000000#8 ++ 0b00000000#8 ++ 0b00000000#8) = some .pull := by decide
theorem test_decode_consume :
    decodeWord (0b00100010#8 ++ 0b00000000#8 ++ 0b00000000#8 ++ 0b00000000#8) = some .consume := by decide
theorem test_decode_bufwr :
    decodeWord (0b00100011#8 ++ 0b00000001#8 ++ 0b11111110#8 ++ 0b01011010#8) = some (.bufwr 1#8 254#8 0x5A#8) := by decide
theorem test_decode_bufrd :
    decodeWord (0b00100100#8 ++ 0b00000001#8 ++ 0b11111110#8 ++ 0b00000000#8) = some (.bufrd 1#8 254#8) := by decide
theorem test_decode_crcrst :
    decodeWord (0b00110000#8 ++ 0b00000000#8 ++ 0b00000000#8 ++ 0b00000000#8) = some .crcrst := by decide
theorem test_decode_crcupd :
    decodeWord (0b00110001#8 ++ 0b00000000#8 ++ 0b00000000#8 ++ 0b00110001#8) = some (.crcupd 0x31#8) := by decide
theorem test_decode_wrseed :
    decodeWord (0b00110010#8 ++ 0b00000000#8 ++ 0b10111110#8 ++ 0b11101111#8) = some (.wrseed 0xBEEF#16) := by decide
theorem test_decode_rdcrc :
    decodeWord (0b00110011#8 ++ 0b00000000#8 ++ 0b00000000#8 ++ 0b00000000#8) = some .rdcrc := by decide
theorem test_decode_arm :
    decodeWord (0b01000000#8 ++ 0b00000000#8 ++ 0b00000000#8 ++ 0b00000000#8) = some .arm := by decide
theorem test_decode_disarm :
    decodeWord (0b01000001#8 ++ 0b00000000#8 ++ 0b00000000#8 ++ 0b00000000#8) = some .disarm := by decide
theorem test_decode_wrcfg :
    decodeWord (0b01000010#8 ++ 0b00000000#8 ++ 0b00000000#8 ++ 0b00011001#8) = some (.wrcfg 0x19#8) := by decide
theorem test_decode_wrgap :
    decodeWord (0b01000011#8 ++ 0b00000001#8 ++ 0b01101101#8 ++ 0b01100000#8) = some (.wrgap 0x016D60#24) := by decide
theorem test_decode_wrside :
    decodeWord (0b01000100#8 ++ 0b00000000#8 ++ 0b00000000#8 ++ 0b10000001#8) = some (.wrside 0x81#8) := by decide
theorem test_decode_rdstatus :
    decodeWord (0b01000101#8 ++ 0b00000000#8 ++ 0b00000000#8 ++ 0b00000000#8) = some .rdstatus := by decide
theorem test_decode_rdpos :
    decodeWord (0b01000110#8 ++ 0b00000000#8 ++ 0b00000000#8 ++ 0b00000000#8) = some .rdpos := by decide
theorem test_decode_rdbits :
    decodeWord (0b01000111#8 ++ 0b00000000#8 ++ 0b00000000#8 ++ 0b00000000#8) = some .rdbits := by decide
theorem test_decode_rdgap :
    decodeWord (0b01001000#8 ++ 0b00000000#8 ++ 0b00000000#8 ++ 0b00000000#8) = some .rdgap := by decide
theorem test_decode_rdcfg :
    decodeWord (0b01001001#8 ++ 0b00000000#8 ++ 0b00000000#8 ++ 0b00000000#8) = some .rdcfg := by decide
theorem test_decode_clrerr :
    decodeWord (0b01001010#8 ++ 0b00000000#8 ++ 0b00000000#8 ++ 0b00000101#8) = some (.clrerr 5#8) := by decide
theorem test_decode_rdgaplen :
    decodeWord (0b01001011#8 ++ 0b00000000#8 ++ 0b00000000#8 ++ 0b00000000#8) = some .rdgaplen := by decide
theorem test_decode_strobes : decode .tickStrobe = some .tick ∧ decode .rstStrobe = some .reset := by decide

/-- V-ENC-1, 2, 4 to 10 and 13: words that match no row. -/
theorem test_decode_refuses :
    decodeWord 0x00000000#32 = none ∧ decodeWord 0xFF000000#32 = none ∧ decodeWord 0x10040001#32 = none ∧
    decodeWord 0x10010002#32 = none ∧ decodeWord 0x11070000#32 = none ∧ decodeWord 0x23020000#32 = none ∧
    decodeWord 0x420000E0#32 = none ∧ decodeWord 0x4C000000#32 = none ∧ decodeWord 0x12000001#32 = none ∧
    decodeWord 0x4A000008#32 = none := by
  refine ⟨?_, ?_, ?_, ?_, ?_, ?_, ?_, ?_, ?_, ?_⟩ <;> decide

/-- The encoder writes the words the spec writes: V-SIG-1, V-BUF-1, V-ENC-3. -/
theorem test_encode_words :
    encode (.setsig 3#8 1#8) = .word 0x10030001#32 ∧ encode (.bufwr 1#8 255#8 0xFF#8) = .word 0x2301FFFF#32 ∧
      encode (.wrgap 28000#24) = .word 0x43006D60#32 := by decide

/-- What the host asks of the table's rows. -/
theorem test_decodeTableWord :
    decodeTableWord 32 0x43006D60 = some (.wrgap 28000#24) ∧ decodeTableWord 32 0x40000000 = some .arm ∧
      decodeTableWord 8 1 = some .tick ∧ decodeTableWord 32 1 = none := by
  refine ⟨?_, ?_, ?_, ?_⟩ <;> decide

/-! ### Signal lines -/

/-- V-SIG-1, last operation of its first row: `SETSIG media_set, 1` from reset. -/
theorem test_setsig_media_set :
    observe (exec (.setsig 0#8 1#8) State.reset) (fun t => (t.sigsWord, t.pinOut .mediaSet)) =
      some (ok 0#32, 0x01#32, false) := by decide
/-- V-ENC-4. -/
theorem test_setsig_input_refused :
    observe (exec (.setsig 4#8 1#8) State.reset) (fun t => (t.flags.cmderr, t.signals)) =
      some (no, true, State.reset.signals) := by decide
/-- V-SIG-6: the register, not the pin. -/
theorem test_rdsig_before_poll :
    observe (exec (.rdsig 5#8) (State.reset.withPins { Pins.idle with scanMedia := false })) (fun t => t.signals.scanMedia) =
      some (ok 0#32, false) := by decide
/-- V-SIG-3, second pin setting. -/
theorem test_poll_stop_motor :
    observe (exec .poll (State.reset.withPins { Pins.idle with stopMotor := false })) (fun t => t.signals.stopMotor) =
      some (ok 0x10#32, true) := by decide
/-- V-SIG-3, last pin setting. -/
theorem test_poll_all :
    observe (exec .poll (State.reset.withPins { stopMotor := false, scanMedia := false, writeEn := false, dataIn := true }))
      (fun t => t.engine.dataOut) = some (ok 0x70#32, false) := by decide
/-- V-ENG-5: `SIGS` 0x00000300 with both lines 1. -/
theorem test_rdsigs_lines :
    observe (exec .rdsigs (State.reset.withEngine { State.reset.engine with dataOut := true, clkOut := true }))
      (fun t => t.flags.cmderr) = some (ok 0x300#32, false) := by decide

/-! ### Double buffer -/

/-- V-BUF-3: the 256th push. -/
theorem test_push_wraps :
    observe (exec (.push 0xEE#8) (cursorAt .buf0 255#8 none)) (fun t => (t.store.ram.read 255, t.statusWord)) =
      some (ok 0#32, 0xEE#8, 0x00000030#32) := by decide
/-- V-ENC-12. -/
theorem test_push_refused_armed :
    observe (exec (.push 0x01#8) (gapWith 2#5 5#24)) (fun t => (t.store.cur, t.flags.cmderr)) = some (no, 0#8, true) := by decide
/-- V-BUF-4, with 0xFF at index 0. -/
theorem test_pull_first :
    observe (exec .pull filled) (fun t => t.statusWord) = some (ok 0xFF#32, 0x00000100#32) := by decide
/-- V-BUF-6: the second wrap with the first request pending. -/
theorem test_push_underrun :
    observe (exec (.push 0x01#8) (cursorAt .buf1 255#8 (some .buf0))) (fun t => t.statusWord) =
      some (ok 0#32, 0x00100040#32) := by decide
/-- V-BUF-3, the `CONSUME` after it. -/
theorem test_consume_buf0 :
    observe (exec .consume (cursorAt .buf1 0#8 (some .buf0))) (fun t => t.statusWord) = some (ok 1#32, 0x00000010#32) := by decide
/-- V-BUF-6, its first `CONSUME`. -/
theorem test_consume_buf1 :
    observe (exec .consume (cursorAt .buf0 0#8 (some .buf1))) (fun t => t.store.refill) = some (ok 2#32, none) := by decide
/-- V-BUF-1. -/
theorem test_bufwr_last :
    observe (exec (.bufwr 1#8 255#8 0xFF#8) filled) (fun t => (t.store.ram, t.statusWord)) =
      some (ok 0#32, [(0, 0xFF#8), (1, 0x00#8), (511, 0xFF#8)], 0#32) := by decide
/-- V-ENC-7. -/
theorem test_bufwr_refused :
    observe (exec (.bufwr 2#8 0#8 0#8) filled) (fun t => t.store.ram) = some (no, filled.store.ram) := by decide
/-- R99, of V-ENG-5's buffer. -/
theorem test_bufrd_first : observe (exec (.bufrd 0#8 0#8) filled) (fun t => t.store.cur) = some (ok 0xFF#32, 0#8) := by decide
/-- R99: a buffer id above 1. -/
theorem test_bufrd_refused : observe (exec (.bufrd 2#8 0#8) filled) (fun t => t.flags.cmderr) = some (no, true) := by decide

/-! ### CRC -/

/-- A state with the accumulator and seed given. -/
def crcIs (v sd : BitVec 16) : State := State.reset.withCrc { value := v, seed := sd }

/-- V-CRC-1, 2, 3, 7, 8 and 13. -/
theorem test_crcUpdate_vectors :
    crcUpdate 0x0000#16 0x00#8 = 0x0000#16 ∧ crcUpdate 0x0000#16 0x01#8 = 0x0100#16 ∧ crcUpdate 0x0000#16 0x80#8 = 0x8000#16 ∧
      crcUpdate 0x0001#16 0x00#8 = 0x1189#16 ∧ crcUpdate 0xFFFF#16 0x00#8 = 0x0F87#16 ∧
      crcUpdate 0xBEEF#16 0x00#8 = 0x1F47#16 := by decide
/-- V-CRC-9 and V-CRC-10. -/
theorem test_crcUpdate_check_string :
    [0x31#8, 0x32#8, 0x33#8, 0x34#8, 0x35#8, 0x36#8, 0x37#8, 0x38#8, 0x39#8].foldl crcUpdate 0x0000#16 = 0x507F#16 ∧
      [0x00#8, 0x00#8].foldl crcUpdate 0x507F#16 = 0x2189#16 := by
  constructor <;> decide +kernel
/-- 95_test_vectors.md, commands under the CRC table: `CRCRST` with seed 0xBEEF. -/
theorem test_crcrst : observe (exec .crcrst (crcIs 0#16 0xBEEF#16)) (fun t => t.crc.value) = some (ok 0#32, 0xBEEF#16) := by decide
/-- The same, armed with `CRC_EN` = 1. -/
theorem test_crcrst_refused :
    observe (exec .crcrst (gapWith 0x12#5 5#24)) (fun t => t.flags.cmderr) = some (no, true) := by decide
/-- V-CRC-13. -/
theorem test_crcupd :
    observe (exec (.crcupd 0x00#8) (crcIs 0xBEEF#16 0#16)) (fun t => t.crc.value) = some (ok 0x1F47#32, 0x1F47#16) := by decide
/-- Armed with `CRC_EN` = 0: `CRCUPD 0x01` is accepted. -/
theorem test_crcupd_armed :
    observe (exec (.crcupd 0x01#8) (gapWith 0x02#5 5#24)) (fun t => t.engine.fsm) = some (ok 0x100#32, .gap) := by decide
/-- R109. -/
theorem test_wrseed :
    observe (exec (.wrseed 0xBEEF#16) State.reset) (fun t => t.crc) =
      some (ok 0#32, { value := 0#16, seed := 0xBEEF#16 }) := by decide
/-- V-ENC-12. -/
theorem test_wrseed_refused :
    observe (exec (.wrseed 0x1234#16) (gapWith 2#5 5#24)) (fun t => t.crc.seed) = some (no, 0#16) := by decide
/-- R110, with V-CRC-14's register. -/
theorem test_rdcrc : observe (exec .rdcrc (crcIs 0x3CA5#16 0#16)) (fun t => t.crc.value) = some (ok 0x3CA5#32, 0x3CA5#16) := by decide

/-! ### The engine -/

/-- V-ENG-6, its `ARM`: `STATUS` 0xFF000105 without the old `abort`. -/
theorem test_arm_emit : observe (exec .arm filled) (fun t => t.statusWord) = some (ok 0#32, 0xFF000105#32) := by decide
/-- P3, `ARM`: capture direction fetches nothing. -/
theorem test_arm_capture :
    observe (exec .arm (filled.withEngine { filled.engine with cfg := 0x19#5 })) (fun t => t.statusWord) =
      some (ok 0#32, 0x00000005#32) := by decide
/-- V-ENG-6: stopped at `bitssent` = 3. -/
theorem test_disarm_midbyte :
    observe (exec .disarm (xferWith 2#5 3#3 0xFF#8)) (fun t => t.statusWord) = some (ok 0#32, 0x00200000#32) := by decide
/-- V-ENG-4: stopped in the gap, no `abort`. -/
theorem test_disarm_gap :
    observe (exec .disarm (gapWith 2#5 3#24)) (fun t => (t.flags.abort, t.engine.fsm)) = some (ok 0#32, false, .disarmed) := by
  decide
/-- `WRCFG 0x1F` of the command list under the CRC table. -/
theorem test_wrcfg : observe (exec (.wrcfg 0x1F#8) State.reset) (fun t => t.engine.cfg) = some (ok 0#32, 0x1F#5) := by decide
/-- V-ENC-8. -/
theorem test_wrcfg_reserved : observe (exec (.wrcfg 0xE0#8) State.reset) (fun t => t.engine.cfg) = some (no, 2#5) := by decide
/-- V-ENC-3. -/
theorem test_wrgap :
    observe (exec (.wrgap 28000#24) State.reset) (fun t => (t.engine.gapLen, t.engine.gapCnt)) =
      some (ok 0#32, 0x006D60#24, 0#24) := by decide
/-- V-ENC-12. -/
theorem test_wrgap_refused : observe (exec (.wrgap 1#24) (gapWith 2#5 5#24)) (fun t => t.engine.gapLen) = some (no, 0#24) := by decide
/-- R131: accepted while armed. -/
theorem test_wrside_armed : observe (exec (.wrside 1#8) (gapWith 2#5 5#24)) (fun t => t.engine.side) = some (ok 0#32, 1#8) := by decide
/-- V-ENG-6: 0xFF030106 without the cursor's 1. -/
theorem test_rdstatus :
    observe (exec .rdstatus (xferWith 2#5 3#3 0xFF#8)) (fun t => t.engine.bitssent) = some (ok 0xFF030006#32, 3#3) := by decide
/-- V-ENG-5. -/
theorem test_rdpos :
    observe (exec .rdpos (filled.withEngine { filled.engine with pos := 1#32, bitcnt := 8#32 })) (fun t => t.engine.pos) =
      some (ok 1#32, 1#32) := by decide
/-- V-ENG-5. -/
theorem test_rdbits :
    observe (exec .rdbits (filled.withEngine { filled.engine with pos := 1#32, bitcnt := 8#32 })) (fun t => t.engine.bitcnt) =
      some (ok 8#32, 8#32) := by decide
/-- V-ENG-4. -/
theorem test_rdgap : observe (exec .rdgap (gapWith 2#5 3#24)) (fun t => t.engine.gapCnt) = some (ok 3#32, 3#24) := by decide
/-- V-ENG-4. -/
theorem test_rdgaplen :
    observe (exec .rdgaplen (filled.withEngine { filled.engine with gapLen := 5#24 })) (fun t => t.engine.gapLen) =
      some (ok 5#32, 5#24) := by decide
/-- `RDCFG` of the command list under the CRC table: 0xBEEF011F. -/
theorem test_rdcfg :
    observe (exec .rdcfg ((crcIs 0#16 0xBEEF#16).withEngine { State.reset.engine with cfg := 0x1F#5, side := 1#8 }))
      (fun t => t.engine.side) = some (ok 0xBEEF011F#32, 1#8) := by decide
/-- V-ENG-9, first row. -/
theorem test_clrerr_abort :
    observe (exec (.clrerr 2#8) (State.reset.withFlags { underrun := true, abort := true, cmderr := true })) (fun t => t.statusWord) =
      some (ok 0#32, 0x00500000#32) := by decide
/-- V-ENC-13. -/
theorem test_clrerr_reserved :
    observe (exec (.clrerr 8#8) (State.reset.withFlags { underrun := true, abort := false, cmderr := false })) (fun t => t.flags) =
      some (no, { underrun := true, abort := false, cmderr := true }) := by decide

/-- V-ENG-3, tick 4: a high-phase tick that finds the gap counter at 0. -/
theorem test_tick_odd_gap :
    observe (exec .tick ((gapWith 2#5 0#24).withEngine { (gapWith 2#5 0#24).engine with ph := true, dataOut := true }))
      (fun t => (t.engine.fsm, t.engine.clkOut, t.engine.dataOut, t.engine.bitssent)) =
      some (none, .xfer, true, true, 0#3) := by decide
/-- P3, the last sampled bit of byte 0xB4 (bit 7 = 1, LSB-first, CRC on, register 0x0100). -/
theorem test_tick_capture_completes :
    observe (exec .tick (((xferWith 0x19#5 7#3 0x34#8).withPins { Pins.idle with dataIn := true }).withCrc
        { value := 0x0100#16, seed := 0#16 }))
      (fun t => (t.store.ram, t.crc.value, t.engine.curByte, t.store.cur)) =
      some (none, [(0, 0xB4#8), (1, 0x00#8)], 0xB401#16, 0#8, 1#8) := by decide
/-- R180 and R181: the RAM stays. -/
theorem test_reset_keeps_ram :
    observe (exec .reset (xferWith 0x1F#5 3#3 0xFF#8)) (fun t => (t.store.ram, t.engine.cfg, t.flags.abort)) =
      some (none, filled.store.ram, 2#5, false) := by decide
/-- V-ENC-14, `RDCFG` right after reset. -/
theorem test_reset_cfg_word : State.reset.cfgWord = 2#32 ∧ State.reset.statusWord = 0#32 := by decide

/-! ### One step -/

/-- V-ENC-1, through the command port. -/
theorem test_step_unlisted_word :
    observe (step (commanded 0x00000000#32)) (fun t => t.statusWord) = some (no, 0x00400000#32) := by decide
/-- R47: a tick and a command at the same instant. -/
theorem test_step_tick_first :
    observe (step (State.reset.withInputs [.present { rst := false, tick := true, cmd := some 0x40000000#32 }])) (fun t => t.inputs) =
      some (none, [.present { rst := false, tick := false, cmd := some 0x40000000#32 }]) := by decide
/-- What the host places is the very next operation. -/
theorem test_withFetchWord :
    observe (step (State.reset.withFetchWord 32 0x43006D60)) (fun t => (t.engine.gapLen, t.inputs)) =
      some (ok 0#32, 28000#24, []) := by decide

/-! ### The controller -/

/-- P4, call 1: idle, `ready` deasserted. -/
theorem test_ctrlPoll_idle :
    (HostAgent.ctrlPoll { machine := State.reset, between := [], source := [], stored := [] }).1 = .idle := by decide

/-- R71: the assembly text of a command. -/
theorem test_instrText : instrText (.setsig 1#8 1#8) = "SETSIG motor_on, 1" := by decide

/-! ### Witnesses: for each statement with hypotheses, values that meet them, one for each clause, at the ends of the ranges -/

theorem witness_DecodeOfEncode :
    Instr.wf (.setsig 3#8 1#8) = true ∧ Instr.wf (.bufwr 1#8 255#8 255#8) = true ∧ Instr.wf (.wrgap 0xFFFFFF#24) = true ∧
      Instr.wf .tick = true := by decide

theorem witness_EncodeOfDecode :
    decode (.word 0x11060000#32) = some (.rdsig 6#8) ∧ decode .tickStrobe = some .tick := by decide

theorem witness_UnlistedWordsAreRefused :
    (opField 0x0F000000#32).toNat ≤ 0x0F ∧ 0x14 ≤ (opField 0x14000000#32).toNat ∧ (opField 0x1F000000#32).toNat ≤ 0x1F ∧
      0x25 ≤ (opField 0x25000000#32).toNat ∧ (opField 0x2F000000#32).toNat ≤ 0x2F ∧ 0x34 ≤ (opField 0x34000000#32).toNat ∧
      (opField 0x3F000000#32).toNat ≤ 0x3F ∧ 0x4C ≤ (opField 0x4C000000#32).toNat := by decide

theorem witness_UnlistedWordsAreRefused_fields :
    (opField 0x10040000#32 = 0x10#8 ∧ 4 ≤ (aField 0x10040000#32).toNat) ∧
      (opField 0x11070000#32 = 0x11#8 ∧ 7 ≤ (aField 0x11070000#32).toNat) ∧
      (opField 0x23020000#32 = 0x23#8 ∧ 2 ≤ (aField 0x23020000#32).toNat) ∧
      (opField 0x24000001#32 = 0x24#8 ∧ cField 0x24000001#32 ≠ 0#8) ∧
      (opField 0x42000020#32 = 0x42#8 ∧ (0x42000020#32 : Word).extractLsb' 5 3 ≠ 0#3) ∧
      (opField 0x4A000008#32 = 0x4A#8 ∧ (0x4A000008#32 : Word).extractLsb' 3 5 ≠ 0#5) ∧
      (opField 0x12000001#32 = 0x12#8 ∧ (0x12000001#32 : Word).extractLsb' 0 24 ≠ 0#24) ∧
      (opField 0x20000100#32 = 0x20#8 ∧ (0x20000100#32 : Word).extractLsb' 8 16 ≠ 0#16) ∧
      (opField 0x32010000#32 = 0x32#8 ∧ aField 0x32010000#32 ≠ 0#8) := by decide

theorem witness_UnlistedWordsAreRefused_step :
    (commanded 0x00000000#32).inputs = .present { rst := false, tick := false, cmd := some 0x00000000#32 } :: [] ∧
      decodeWord 0x00000000#32 = none := by decide

theorem witness_StepRunsTheDecodedOperation :
    (commanded 0x12000000#32).inputs = .present { rst := false, tick := false, cmd := some 0x12000000#32 } :: [] ∧
      decode (.word 0x12000000#32) = some .poll ∧
      (presenting (.present { rst := false, tick := true, cmd := none })).inputs =
        .present { rst := false, tick := true, cmd := none } :: [] ∧
      (presenting (.present { rst := true, tick := false, cmd := none })).inputs =
        .present { rst := true, tick := false, cmd := none } :: [] ∧
      (presenting (.pins Pins.idle)).inputs = .pins Pins.idle :: [] ∧
      (presenting (.present { rst := false, tick := false, cmd := none })).inputs =
        .present { rst := false, tick := false, cmd := none } :: [] ∧
      State.reset.inputs = [] := by decide

theorem witness_TickGoesBeforeCommand :
    (presenting (.present { rst := false, tick := true, cmd := some 0x40000000#32 })).inputs =
      .present { rst := false, tick := true, cmd := some 0x40000000#32 } :: [] := by decide

theorem witness_EveryCommandAnswersOnce :
    (isEvent .poll = false ∧ ∃ t, exec .poll State.reset = .next t) ∧
      (isEvent .tick = true ∧ ∃ t, exec .tick (gapWith 2#5 5#24) = .next t) ∧
      ∃ t, (commanded 0x12000000#32).inputs = .present { rst := false, tick := false, cmd := some 0x12000000#32 } :: [] ∧
        step (commanded 0x12000000#32) = .next t :=
  ⟨⟨rfl, _, rfl⟩, ⟨rfl, _, rfl⟩, _, rfl, rfl⟩

theorem witness_RefusalHasOneEffect :
    decodeWord 0x00000000#32 = none ∧
      (decodeWord 0x40000000#32 = some .arm ∧ legalNow (gapWith 2#5 5#24) .arm = false) ∧
      (decodeWord 0x30000000#32 = some .crcrst ∧ legalNow (gapWith 0x12#5 5#24) .crcrst = false ∧
        legalNow (gapWith 0x02#5 5#24) .crcrst = true) ∧
      ∃ t, (commanded 0x12000000#32).inputs = .present { rst := false, tick := false, cmd := some 0x12000000#32 } :: [] ∧
        decodeWord 0x12000000#32 = some .poll ∧ legalNow (commanded 0x12000000#32) .poll = true ∧
        step (commanded 0x12000000#32) = .next t :=
  ⟨by decide, ⟨by decide, by decide⟩, ⟨by decide, by decide, by decide⟩, _, rfl, by decide, rfl, rfl⟩

theorem witness_CommandsRefusedWhileArmed :
    Instr.wf .crcrst = true ∧ isEvent .crcrst = false ∧ (gapWith 0x12#5 5#24).engine.fsm ≠ .disarmed ∧
      (gapWith 0x12#5 5#24).engine.cfg.getLsbD 4 = true ∧ State.reset.engine.fsm = .disarmed := by decide

theorem witness_SetsigDrivesOneOutput :
    ((3#8 : Byte).toNat = OutSig.rwMedia.id ∧ (1#8 : Byte).toNat ≤ 1) ∧ 3 < (4#8 : Byte).toNat ∧ 1 < (2#8 : Byte).toNat ∧
      opField 0x10030001#32 = 0x10#8 := by decide

theorem witness_RdsigReturnsLogicalState :
    (6#8 : Byte).toNat = (Signal.inp .writeEnable).id ∧ 6 < (7#8 : Byte).toNat ∧ opField 0x11060000#32 = 0x11#8 := by decide

/-- Words of the opcodes whose decoding `SpelledZ` and `SpelledC` describe: both outcomes. -/
theorem witness_SpelledZ_SpelledC :
    (opField 0x13000000#32 = 0x13#8 ∧ opField 0x13000001#32 = 0x13#8) ∧ (opField 0x12000000#32 = 0x12#8) ∧
      (opField 0x200000FF#32 = 0x20#8 ∧ opField 0x200100FF#32 = 0x20#8) ∧
      (opField 0x4200001F#32 = 0x42#8 ∧ opField 0x42000020#32 = 0x42#8) ∧
      (opField 0x4A000007#32 = 0x4A#8 ∧ opField 0x4A000008#32 = 0x4A#8) := by decide

theorem witness_SigsWordLayout : 10 ≤ (10 : Nat) ∧ 10 ≤ (31 : Nat) := by decide

theorem witness_PollLatchesTheInputs :
    Instr.consume ≠ .poll ∧ Instr.consume ≠ .reset ∧ ∃ t, exec .consume State.reset = .next t := ⟨by decide, by decide, _, rfl⟩

theorem witness_SignalRegistersAreStable :
    (∃ t u, flagged.pins = State.reset.pins ∧ exec .poll State.reset = .next t ∧ exec .poll flagged = .next u) ∧
    (∃ t u, exec .poll State.reset = .next t ∧ exec .poll t = .next u) ∧
      (Instr.rdsigs ≠ .poll ∧ Instr.rdsigs ≠ .reset ∧ ∃ t, exec .rdsigs State.reset = .next t) ∧
      ((presenting (.pins Pins.idle)).inputs = .pins Pins.idle :: []) ∧
      ((∀ a c, Instr.poll ≠ .setsig a c) ∧ Instr.poll ≠ .reset ∧ ∃ t, exec .poll State.reset = .next t) :=
  ⟨⟨_, _, rfl, rfl, rfl⟩, ⟨_, _, rfl, rfl⟩, ⟨by decide, by decide, _, rfl⟩, rfl, ⟨nofun, by decide, _, rfl⟩⟩

/-- Disarmed and armed states, for the commands that ask which it is: `PUSH`, `PULL`, `ARM`, `DISARM`, the configuration writes. -/
theorem witness_PushWritesUnderTheCursor :
    (cursorAt .buf1 255#8 (some .buf0)).engine.fsm = .disarmed ∧ (gapWith 2#5 5#24).engine.fsm ≠ .disarmed := by decide
theorem witness_PullReadsUnderTheCursor :
    (cursorAt .buf0 255#8 none).engine.fsm = .disarmed ∧ (xferWith 2#5 7#3 0#8).engine.fsm ≠ .disarmed := by decide

theorem witness_ConsumeReadsAndClears : ∃ t, exec .consume (cursorAt .buf1 0#8 (some .buf0)) = .next t := ⟨_, rfl⟩

theorem witness_BufwrWritesOneByte :
    (1#8 : Byte).toNat ≤ 1 ∧ 1 < (2#8 : Byte).toNat ∧ opField 0x2301FFFF#32 = 0x23#8 := by decide
theorem witness_BufrdReadsOneByte :
    (1#8 : Byte).toNat ≤ 1 ∧ 1 < (2#8 : Byte).toNat ∧ opField 0x2401FF00#32 = 0x24#8 := by decide

/-- The accesses of the two statements about many: 512 pushes and pulls from buffer 0, index 0. -/
theorem witness_AccessCountGivesCursor :
    (cursorAt .buf0 0#8 none).engine.fsm = .disarmed ∧ (cursorAt .buf0 0#8 none).store.sel = .buf0 ∧
      (cursorAt .buf0 0#8 none).store.cur = 0#8 ∧ (cursorAt .buf0 0#8 none).store.refill = none ∧
      (∀ i ∈ List.replicate 512 Instr.pull, i = .pull ∨ ∃ c, i = .push c) :=
  ⟨rfl, rfl, rfl, rfl, fun _ h => .inl (List.eq_of_mem_replicate h)⟩
theorem witness_ConsumerSeesAlternatingRequests :
    (∀ i ∈ [Instr.push 0xEE#8, Instr.pull], i = .pull ∨ ∃ c, i = .push c) ∧ [Instr.push 0xEE#8, Instr.pull] ≠ [] ∧
      (cursorAt .buf0 0#8 none).store.refill = none := by simp [cursorAt]

theorem witness_FillAndDrainMoveABuffer : (List.replicate 256 (0x5A#8 : Byte)).length ≤ 256 ∧ ([] : List Byte).length ≤ 256 :=
  ⟨List.length_replicate.le, Nat.zero_le _⟩

theorem witness_RamSurvivesReset : (0#8 : Byte).toNat ≤ 1 ∧ (1#8 : Byte).toNat ≤ 1 := by decide

theorem witness_CrcCommandsUpdateTheAccumulator :
    State.reset.engine.fsm = .disarmed ∧ (gapWith 0x02#5 5#24).engine.cfg.getLsbD 4 = false ∧
      ((gapWith 0x12#5 5#24).engine.fsm ≠ .disarmed ∧ (gapWith 0x12#5 5#24).engine.cfg.getLsbD 4 = true) := by decide
theorem witness_CrcIsDeterministicAndZeroStaysZero : State.reset.engine.fsm = .disarmed ∧ (0x0001#16 : BitVec 16) ≠ 0x0000#16 := by
  decide

theorem witness_ArmStartsASession :
    (filled.engine.fsm = .disarmed ∧ filled.engine.cfg.getLsbD 0 = false) ∧ (gapWith 2#5 5#24).engine.fsm ≠ .disarmed := by decide
theorem witness_DisarmEndsASession :
    (xferWith 2#5 3#3 0xFF#8).engine.fsm ≠ .disarmed ∧ (gapWith 2#5 5#24).engine.fsm ≠ .disarmed ∧ filled.engine.fsm = .disarmed ∧
      ∃ t, exec .disarm (gapWith 2#5 5#24) = .next t := ⟨by decide, by decide, rfl, _, rfl⟩
theorem witness_ConfigurationWrites :
    (State.reset.engine.fsm = .disarmed ∧ (31#8 : Byte).toNat < 32) ∧ (gapWith 2#5 5#24).engine.fsm ≠ .disarmed ∧
      32 ≤ (32#8 : Byte).toNat ∧ opField 0x3200BEEF#32 = 0x32#8 ∧ opField 0x43FFFFFF#32 = 0x43#8 := by decide
theorem witness_ClrerrClearsSelectedFlags : (7#8 : Byte).toNat < 8 ∧ 8 ≤ (8#8 : Byte).toNat := by decide

/-- A high-phase state in `XFER`. -/
def xferHigh : State := (xferWith 2#5 3#3 0xFF#8).withEngine { (xferWith 2#5 3#3 0xFF#8).engine with ph := true }

theorem witness_TicksWithoutDataAction :
    State.reset.engine.fsm = .disarmed ∧ xferHigh.engine.fsm = .xfer ∧ xferHigh.engine.ph = true := by decide
theorem witness_GapTicks :
    ((gapWith 2#5 1#24).engine.fsm = .gap ∧ (gapWith 2#5 1#24).countsGap = true ∧ (gapWith 2#5 1#24).engine.gapCnt ≠ 0#24) ∧
      ((gapWith 1#5 0#24).countsGap = true ∧ (gapWith 1#5 0#24).engine.gapCnt = 0#24) ∧
      ((gapWith 0x19#5 0#24).engine.fsm = .gap ∧ (gapWith 0x19#5 0#24).countsGap = false) := by decide
theorem witness_EmitTickDrivesOneBit :
    ((xferWith 2#5 6#3 0xA5#8).engine.fsm = .xfer ∧ (xferWith 2#5 6#3 0xA5#8).engine.ph = false ∧
        (xferWith 2#5 6#3 0xA5#8).engine.cfg.getLsbD 0 = false ∧ (xferWith 2#5 6#3 0xA5#8).engine.bitssent ≠ 7#3) ∧
      (xferWith 2#5 7#3 0xA5#8).engine.bitssent = 7#3 := by decide
theorem witness_CaptureTickSamplesOneBit :
    ((xferWith 0x19#5 6#3 0x34#8).engine.fsm = .xfer ∧ (xferWith 0x19#5 6#3 0x34#8).engine.ph = false ∧
        (xferWith 0x19#5 6#3 0x34#8).engine.cfg.getLsbD 0 = true ∧ (xferWith 0x19#5 6#3 0x34#8).engine.bitssent ≠ 7#3) ∧
      (xferWith 0x19#5 7#3 0x34#8).engine.bitssent = 7#3 := by decide
theorem witness_TickWritesOnlyItsFields :
    (∃ t, exec .tick (gapWith 2#5 5#24) = .next t) ∧ (gapWith 2#5 5#24).engine.cfg.getLsbD 0 = false ∧
      (gapWith 2#5 5#24).engine.cfg.getLsbD 4 = false := ⟨⟨_, rfl⟩, by decide, by decide⟩

theorem witness_GapLastsExactlyItsTicks :
    (gapWith 2#5 5#24).engine.fsm = .gap ∧ (gapWith 2#5 5#24).countsGap = true ∧ 5 ≤ (gapWith 2#5 5#24).engine.gapCnt.toNat := by
  decide
theorem witness_EmitWaveform :
    filled.engine.fsm = .disarmed ∧ filled.engine.cfg.getLsbD 0 = false ∧ 0 ≤ filled.engine.gapLen.toNat ∧
      filled.engine.gapLen.toNat < 16 := by decide
theorem witness_RefillRequestsOfASession : filled.engine.fsm = .disarmed ∧ filled.countsGap = true := by decide

/-- Right after the tick that posted the request for buffer 0, when emitting. -/
def posted : State :=
  (xferWith 2#5 0#3 0#8).withEngine { (xferWith 2#5 0#3 0#8).engine with ph := true } |>.withStore
    { filled.store with sel := .buf1, cur := 0#8, refill := some .buf0 }

theorem witness_RefillDeadlines :
    posted.engine.fsm = .xfer ∧ posted.engine.ph = true ∧ posted.engine.bitssent = 0#3 ∧ posted.store.cur = 0#8 ∧
      posted.store.sel = BufId.buf0.other ∧ (255 : Nat) < 256 ∧ 0 + 1 < 16 * (257 + 0) := by decide

theorem witness_CaptureAssemblesAByte :
    (xferWith 0x15#5 0#3 0#8).engine.fsm = .xfer ∧ (xferWith 0x15#5 0#3 0#8).engine.ph = false ∧
      (xferWith 0x15#5 0#3 0#8).engine.bitssent = 0#3 ∧ (xferWith 0x15#5 0#3 0#8).engine.cfg.getLsbD 0 = true ∧
      ((xferWith 0x15#5 0#3 0#8).withInputs (cellsOf Pins.idle true 0xCA#8)).inputs = cellsOf Pins.idle true 0xCA#8 ++ [] ∧
      (xferWith 0x15#5 0#3 0#8).engine.cfg.getLsbD 2 = true := by decide

/-- A state of a session, with a tick to come, that meets the four invariants. -/
def running : State :=
  ((xferWith 2#5 3#3 0xFF#8).withStore { (xferWith 2#5 3#3 0xFF#8).store with sel := .buf1, refill := some .buf0 }).withInputs
    [.present { rst := false, tick := true, cmd := none }]

theorem witness_StepKeepsRamCanonical : RamCanonical running ∧ ∃ t, step running = .next t := ⟨rfl, _, rfl⟩
theorem witness_StepKeepsRequestNamesVacated : RequestNamesVacated running ∧ ∃ t, step running = .next t :=
  ⟨fun b h => by cases b <;> simp [running, xferWith] at h ⊢, _, rfl⟩
theorem witness_StepKeepsCountersAgree : CountersAgree running ∧ ∃ t, step running = .next t :=
  ⟨⟨nofun, nofun, fun _ => by decide⟩, _, rfl⟩

/-- Mid-byte in a capture session, the five bits not yet sampled being 0. -/
def capturing : State :=
  (xferWith 0x01#5 3#3 0x05#8).withInputs [.present { rst := false, tick := true, cmd := none }]

theorem witness_StepKeepsCaptureClean :
    CaptureClean capturing ∧ capturing.engine.fsm ≠ .disarmed ∧ capturing.engine.cfg.getLsbD 0 = true ∧
      ∃ t, step capturing = .next t :=
  ⟨fun _ _ => by decide, by decide, by decide, _, rfl⟩

theorem witness_EngineStateTransitions :
    (∃ t, exec .arm filled = .next t) ∧ (∃ t, exec .tick (gapWith 2#5 0#24) = .next t) ∧
      ∃ t, exec .disarm (gapWith 2#5 5#24) = .next t := ⟨⟨_, rfl⟩, ⟨_, rfl⟩, _, rfl⟩
theorem witness_CommandsLeaveEngineFieldsWhileArmed :
    (gapWith 0x12#5 5#24).engine.fsm ≠ .disarmed ∧ isEvent .consume = false ∧ Instr.consume ≠ .disarm ∧
      Instr.disarm ≠ .consume ∧ (gapWith 0x12#5 5#24).engine.cfg.getLsbD 4 = true ∧
      ∃ t, exec .consume (gapWith 0x12#5 5#24) = .next t :=
  ⟨by decide, rfl, by decide, by decide, by decide, _, rfl⟩

theorem witness_StickyFlagsStaySet :
    ((∃ t, exec (.clrerr 2#8) flagged = .next t) ∧ flagged.flags.get .underrun = true ∧
        (∀ c : Byte, Instr.clrerr 2#8 = .clrerr c → c.getLsbD Event.underrun.code = false)) ∧
      (∃ t, exec (.push 1#8) (cursorAt .buf1 255#8 (some .buf0)) = .next t ∧ t.flags.underrun = true) ∧
      (∃ t, exec .disarm (xferWith 2#5 3#3 0xFF#8) = .next t ∧ t.flags.abort = true) ∧
      ∃ t, exec .arm (gapWith 2#5 5#24) = .next t ∧ t.flags.cmderr = true :=
  ⟨⟨⟨_, rfl⟩, rfl, fun c h => by cases h; decide⟩, ⟨_, rfl, rfl⟩, ⟨_, rfl, rfl⟩, _, rfl, rfl⟩
theorem witness_StickyFlagsAreNeverRead : Instr.push 1#8 ≠ .rdstatus ∧ ∃ t, exec (.push 1#8) flagged = .next t :=
  ⟨by decide, _, rfl⟩
theorem witness_TickIgnoresHandshakeAndSide :
    (∃ t, exec .tick (xferWith 0x01#5 3#3 0x05#8) = .next t) ∧
      Pins.dataIn { stopMotor := false, scanMedia := false, writeEn := false, dataIn := false } =
        (xferWith 0x01#5 3#3 0x05#8).pins.dataIn := ⟨⟨_, rfl⟩, rfl⟩
theorem witness_ResetRestoresEveryRegister :
    (presenting (.present { rst := true, tick := true, cmd := some 0x40000000#32 })).inputs =
      .present { rst := true, tick := true, cmd := some 0x40000000#32 } :: [] := by decide
/-- A host with nothing between its commands, the levels of stop-motor and scan-media given, and two blocks to come. -/
def hostWith (m : State) (stopMotor scanMedia : Bool) : HostAgent :=
  { machine := m.withPins { Pins.idle with stopMotor := stopMotor, scanMedia := scanMedia }
    between := [], source := [[0xA5#8], [0x3C#8]], stored := [] }

/-- Whether a call takes step 4. -/
def startsIn (h : HostAgent) : Bool := h.machine.pins.stopMotor && !h.machine.pins.scanMedia && !h.machine.armed

/-- Each of the branches of steps 3 to 6 meets the hypotheses: a stop, a start, a session that goes on, and none of them. -/
theorem witness_CtrlPollSettlesSignalsAndSession :
    ((hostWith posted false true).between = [] ∧ (hostWith posted false true).machine.inputs = [] ∧
        (hostWith posted false true).machine.armed = true) ∧
      ((hostWith filled true false).machine.inputs = [] ∧ startsIn (hostWith filled true false) = true) ∧
      ((hostWith posted true true).machine.inputs = [] ∧ (hostWith posted true true).machine.armed = true) ∧
      ((hostWith filled true true).machine.inputs = [] ∧ startsIn (hostWith filled true true) = false) := by decide

theorem witness_CtrlPollMovesTheBuffers :
    ((hostWith filled true false).machine.inputs = [] ∧ startsIn (hostWith filled true false) = true ∧
        filled.engine.cfg.getLsbD 0 = false) ∧
      ((1#5 : BitVec 5).getLsbD 0 = true ∧
        startsIn (hostWith (filled.withEngine { filled.engine with cfg := 1#5 }) true false) = true) ∧
      (startsIn (hostWith posted true false) = false ∧ (hostWith posted true false).machine.store.refill = some .buf0 ∧
        posted.engine.cfg.getLsbD 0 = false) ∧
      (startsIn (hostWith (posted.withEngine { posted.engine with cfg := 1#5 }) true false) = false ∧ posted.store.refill = some .buf0 ∧
        (1#5 : BitVec 5).getLsbD 0 = true) ∧
      (startsIn (hostWith filled true true) = false ∧ (hostWith filled true true).machine.store.refill = none) := by decide
theorem witness_CtrlPollIsNeverRefused :
    (∀ es ∈ (HostAgent.mk State.reset [[.present { rst := false, tick := true, cmd := none }], [.pins Pins.idle]] [] []).between,
        ∀ e ∈ es, e.quiet = true) ∧
      (HostAgent.mk State.reset [[.present { rst := false, tick := true, cmd := none }], [.pins Pins.idle]] [] []).machine.inputs = [] := by
  decide

end Sys2Proof.Tests
end

section
/-!
What one operation can do, said once: the proofs about `step` and `exec` take them apart with `exec_effect`, `tick_spec` and `step_keeps`.
-/

namespace Sys2Proof.Machine

/-! ### Facts about the shared operations -/

theorem State.fsm_of_not_armed {s : State} (h : ¬ s.armed = true) : s.engine.fsm = .disarmed := by
  simpa [State.armed_iff] using h

theorem State.cursorAddr_lt (s : State) : s.cursorAddr < 512 := ramAddr_cursor s ▸ ramAddr_lt _ _

@[simp] theorem State.push_ram (s : State) (v : Byte) : (s.push v).store.ram = s.store.ram.write s.cursorAddr v := by
  rw [State.push_spec]

@[simp] theorem State.push_engine (s : State) (v : Byte) : (s.push v).engine = s.engine := by
  simp [State.push_spec]

@[simp] theorem State.push_flags (s : State) (v : Byte) : (s.push v).flags = s.stepCursor.flags := by
  rw [State.push_spec]

/-- The only flag a cursor step can set is `underrun` (R92). -/
theorem State.stepCursor_flags (s : State) : s.stepCursor.flags = s.flags ∨ s.stepCursor.flags = s.flags.set .underrun := by
  unfold State.stepCursor
  split
  · cases s.store.refill.isSome
    · left; simp
    · right; simp [Flags.set]
  · exact .inl rfl

/-- The only flag the end of a session can set is `abort` (R128). -/
theorem State.endSession_flags (s : State) : s.endSession.flags = s.flags ∨ s.endSession.flags = s.flags.set .abort := by
  unfold State.endSession
  split
  · exact .inr rfl
  · exact .inl rfl

/-! ### A Transferring tick, and a tick -/

/-- What `t` did to the store and the flags of `s` through the engine port: nothing, a cursor step, or a `push` (R92 to R94). -/
def PortUse (s t : State) : Prop :=
  (t.store = s.store ∧ t.flags = s.flags) ∨ (t.store = s.stepCursor.store ∧ t.flags = s.stepCursor.flags) ∨
  ∃ v, t.store = (s.push v).store ∧ t.flags = s.stepCursor.flags

theorem PortUse.ram {s t : State} (h : PortUse s t) :
    t.store.ram = s.store.ram ∨ ∃ v, t.store.ram = s.store.ram.write s.cursorAddr v := by
  obtain ⟨h, -⟩ | ⟨h, -⟩ | ⟨v, h, -⟩ := h <;> rw [h]
  · exact .inl rfl
  · exact .inl s.stepCursor_ram
  · exact .inr ⟨v, s.push_ram v⟩

theorem PortUse.flags {s t : State} (h : PortUse s t) : t.flags = s.flags ∨ t.flags = s.flags.set .underrun := by
  obtain ⟨-, h⟩ | ⟨-, h⟩ | ⟨v, -, h⟩ := h <;> rw [h]
  · exact .inl rfl
  · exact s.stepCursor_flags
  · exact s.stepCursor_flags

/-- A Transferring tick makes at most one access, the one that completes a byte (R123 to R126). -/
theorem State.transfer_portUse (s : State) (low : Bool) : PortUse s (s.transfer low) := by
  rw [State.transfer_spec]
  split
  · split
    · rw [State.bitCapture_spec]
      dsimp only
      split
      · exact .inr (.inr ⟨_, by rw [State.push_spec], rfl⟩)
      · exact .inl ⟨rfl, rfl⟩
    · rw [State.bitEmit_spec]
      split
      · exact .inr (.inl ⟨rfl, rfl⟩)
      · exact .inl ⟨rfl, rfl⟩
  · exact .inl ⟨rfl, rfl⟩

@[simp] theorem State.transfer_fsm (s : State) (low : Bool) : (s.transfer low).engine.fsm = s.engine.fsm := by
  rw [State.transfer_spec, State.bitCapture_spec, State.bitEmit_spec]
  dsimp only
  split_ifs <;> rfl

/-- An access depends on the engine's registers in nothing that it does to the store and the flags. -/
theorem PortUse.of_withEngine {s t : State} {e : Engine} (h : PortUse (s.withEngine e) t) : PortUse s t := by
  have hstep : (s.withEngine e).stepCursor = s.stepCursor.withEngine e := by
    simpa [State.withEngine] using s.stepCursor_of_parts s.crc e
  have hpush : ∀ v, ((s.withEngine e).push v).store = (s.push v).store := by
    intro v
    simp only [State.push_spec, hstep]
    rfl
  rw [PortUse, hstep] at h
  simp only [hpush] at h
  exact h

/-- A tick makes at most one access through the engine port. -/
theorem State.tick_portUse (s : State) : PortUse s s.tick := by
  rcases s.tick_spec with ⟨-, h⟩ | ⟨-, -, h⟩ | ⟨-, -, -, h⟩ | ⟨-, -, -, h⟩ | ⟨-, h⟩ <;> rw [h]
  · exact .inl ⟨rfl, rfl⟩
  · exact .inl (by simp [State.gapFirstOne_spec])
  · exact .inl (by simp [State.gapCount_spec])
  · exact PortUse.of_withEngine ((s.strobeClock.setFsm .xfer).transfer_portUse _)
  · exact PortUse.of_withEngine (s.strobeClock.transfer_portUse _)

/-- A tick keeps the engine state or ends the gap (R116). -/
theorem State.tick_fsm (s : State) :
    s.tick.engine.fsm = s.engine.fsm ∨ (s.engine.fsm = .gap ∧ s.tick.engine.fsm = .xfer) := by
  rcases s.tick_spec with ⟨-, h⟩ | ⟨hf, -, h⟩ | ⟨-, -, -, h⟩ | ⟨hf, -, -, h⟩ | ⟨-, h⟩ <;> rw [h]
  · exact .inl rfl
  · rw [State.gapFirstOne_spec]
    by_cases hone : (!s.engine.ph) = true ∧ s.strobeClock.pins.dataIn = true
    · exact .inr ⟨hf, if_pos hone⟩
    · exact .inl (if_neg hone)
  · simp [State.gapCount_spec]
  · right; simp [hf]
  · left; simp

/-! ### An operation -/

/-- What an operation can leave behind: the effects of `exec`, with those that write the same part of the state put together. An
effect that only some operations have names them. -/
inductive ExecEffect (s : State) : Instr → State → Prop where
  | refused {i : Instr} : ExecEffect s i s.refuse
  | answered {i : Instr} (v : Word) : ExecEffect s i (s.rsp v)
  | signals {i : Instr} (g : Signals) (v : Word) : ExecEffect s i ((s.withSignals g).rsp v)
  | crc {i : Instr} (c : Crc) (v : Word) : ExecEffect s i ((s.withCrc c).rsp v)
  | push (c : Byte) : ExecEffect s (.push c) ((s.push c).rsp 0#32)
  | pull (v : Word) : ExecEffect s .pull (s.stepCursor.rsp v)
  | consume (v : Word) : ExecEffect s .consume ((s.withStore { s.store with refill := none }).rsp v)
  | bufwr (a : Byte) (d : BufId) (b c : Byte) : ExecEffect s (.bufwr a b c) ((s.setBufByte d b c).rsp 0#32)
  | arm (hd : s.engine.fsm = .disarmed) : ExecEffect s .arm ((s.startSession.setFsm .gap).rsp 0#32)
  | disarm : ExecEffect s .disarm (s.endSession.rsp 0#32)
  | configured {i : Instr} (hd : s.engine.fsm = .disarmed) (cfg : BitVec 5) (gapLen : BitVec 24) :
      ExecEffect s i ((s.withEngine { s.engine with cfg := cfg, gapLen := gapLen }).rsp 0#32)
  | side (d : Byte) : ExecEffect s (.wrside d) ((s.withEngine { s.engine with side := d }).rsp 0#32)
  | cleared (m : Byte) : ExecEffect s (.clrerr m) ((s.acknowledge m).rsp 0#32)
  | tick : ExecEffect s .tick s.tick
  | reset : ExecEffect s .reset s.resetBlock

/-- Every operation has one of the effects of `ExecEffect`. -/
theorem exec_effect {i : Instr} {s t : State} (h : exec i s = .next t) : ExecEffect s i t := by
  cases i with
  | setsig a c =>
    simp only [exec, execSetsig] at h
    split at h <;> cases h
    · exact .signals _ _
    · exact .refused
  | rdsig a =>
    simp only [exec, execRdsig] at h
    split at h <;> cases h
    · exact .answered _
    · exact .refused
  | poll => cases h; exact .signals _ _
  | push c =>
    simp only [exec, execPush] at h
    split at h <;> cases h
    · exact .refused
    · exact .push c
  | pull =>
    simp only [exec, execPull, State.pull_spec] at h
    split at h <;> cases h
    · exact .refused
    · exact .pull _
  | consume => cases h; exact .consume _
  | bufwr a b c =>
    simp only [exec, execBufwr] at h
    split at h <;> cases h
    · exact .bufwr a _ b c
    · exact .refused
  | bufrd a b =>
    simp only [exec, execBufrd] at h
    split at h <;> cases h
    · exact .answered _
    · exact .refused
  | crcrst =>
    simp only [exec, execCrcrst] at h
    split at h <;> cases h
    · exact .refused
    · exact .crc _ _
  | crcupd c =>
    simp only [exec, execCrcupd] at h
    split at h <;> cases h
    · exact .refused
    · exact .crc _ _
  | wrseed v =>
    simp only [exec, execWrseed] at h
    split at h <;> cases h
    · exact .refused
    · exact .crc _ _
  | arm =>
    simp only [exec, execArm] at h
    split at h <;> cases h
    · exact .refused
    · next hd => exact .arm (State.fsm_of_not_armed hd)
  | disarm =>
    simp only [exec, execDisarm] at h
    split at h <;> cases h
    · exact .disarm
    · exact .answered _
  | wrcfg c =>
    simp only [exec, execWrcfg] at h
    split at h <;> cases h
    · exact .refused
    · next hd => exact .configured (State.fsm_of_not_armed fun ha => hd (.inr ha)) _ s.engine.gapLen
  | wrgap g =>
    simp only [exec, execWrgap] at h
    split at h <;> cases h
    · exact .refused
    · next hd => exact .configured (State.fsm_of_not_armed hd) s.engine.cfg g
  | wrside d => cases h; exact .side d
  | clrerr m =>
    simp only [exec, execClrerr] at h
    split at h <;> cases h
    · exact .refused
    · exact .cleared m
  | tick => cases h; exact .tick
  | reset => cases h; exact .reset
  | rdsigs => cases h; exact .answered _
  | rdcrc => cases h; exact .answered _
  | rdstatus => cases h; exact .answered _
  | rdpos => cases h; exact .answered _
  | rdbits => cases h; exact .answered _
  | rdgap => cases h; exact .answered _
  | rdcfg => cases h; exact .answered _
  | rdgaplen => cases h; exact .answered _

/-! ### A step -/

/-- Taking the next entry off the ports changes only the input pins and what is still to be presented (R46). -/
theorem fetch_frame {s t : State} (h : fetch s = .environment t ∨ ∃ r, fetch s = .operation r t) :
    ∃ p x, t = (s.withPins p).withInputs x := by
  rcases fetch_spec s with ⟨-, hf⟩ | ⟨p, rest, -, hf⟩ | ⟨p, rest, -, -, hf⟩ | ⟨p, rest, -, -, -, hf⟩ |
    ⟨p, rest, w, -, -, -, -, hf⟩ | ⟨p, rest, -, -, -, -, hf⟩ <;> rw [hf] at h
  · simp at h
  · obtain rfl : (s.withPins p).withInputs rest = t := by simpa using h
    exact ⟨p, rest, rfl⟩
  · obtain rfl : s.withInputs rest = t := by simpa using h
    exact ⟨s.pins, rest, rfl⟩
  · obtain rfl : s.withInputs (p.afterTick ++ rest) = t := by simpa using h
    exact ⟨s.pins, _, rfl⟩
  · obtain rfl : s.withInputs rest = t := by simpa using h
    exact ⟨s.pins, rest, rfl⟩
  · obtain rfl : s.withInputs rest = t := by simpa using h
    exact ⟨s.pins, rest, rfl⟩

/-- An invariant of the store and the engine holds after every step once every operation keeps it: the ports and a refusal touch
neither part. -/
theorem step_keeps {P : State → Prop}
    (hparts : ∀ s t : State, t.store = s.store → t.engine = s.engine → P s → P t)
    (hexec : ∀ (i : Instr) (s t : State), P s → exec i s = .next t → P t)
    (s t : State) (hs : P s) (h : step s = .next t) : P t := by
  have hfetched : ∀ u, (fetch s = .environment u ∨ ∃ r, fetch s = .operation r u) → P u := by
    intro u hu
    obtain ⟨p, x, rfl⟩ := fetch_frame hu
    exact hparts s _ rfl rfl hs
  rcases step_spec s with ⟨hstep, -⟩ | ⟨u, hf, hstep⟩ | ⟨r, u, i, hf, -, hstep⟩ | ⟨r, u, hf, -, hstep⟩ <;> rw [hstep] at h
  · cases h; exact hs
  · cases h; exact hfetched _ (.inl hf)
  · exact hexec i u t (hfetched u (.inr ⟨r, hf⟩)) h
  · cases h; exact hparts u _ rfl rfl (hfetched u (.inr ⟨r, hf⟩))

end Sys2Proof.Machine
end

section
/-! The canonical form of the RAM: an operation writes at most one byte, at an address of the RAM. -/

namespace Sys2Proof.Machine

/-- An operation leaves the RAM alone or writes one byte at an address of the RAM (R93, R98, R125). -/
theorem exec_ram {i : Instr} {s t : State} (h : exec i s = .next t) :
    t.store.ram = s.store.ram ∨ ∃ a v, a < 512 ∧ t.store.ram = s.store.ram.write a v := by
  cases exec_effect h with
  | push c => exact .inr ⟨s.cursorAddr, c, s.cursorAddr_lt, s.push_ram c⟩
  | bufwr a d b c => exact .inr ⟨ramAddr d b, c, ramAddr_lt d b, rfl⟩
  | tick =>
    obtain hr | ⟨v, hr⟩ := s.tick_portUse.ram
    · exact .inl hr
    · exact .inr ⟨s.cursorAddr, v, s.cursorAddr_lt, hr⟩
  | pull v => exact .inl s.stepCursor_ram
  | arm _ => left; simp [State.startSession_spec]
  | disarm => left; simp [State.endSession_spec]
  | _ => exact .inl rfl

theorem exec_keeps_ramCanonical (i : Instr) (s t : State) (hs : RamCanonical s) (h : exec i s = .next t) :
    RamCanonical t := by
  obtain hr | ⟨a, v, ha, hr⟩ := exec_ram h
  · exact (congrArg Memory.wf hr).trans hs
  · exact (congrArg Memory.wf hr).trans (Memory.wf_write s.store.ram a v ha hs)

/-- Settles O47: every operation writes at most one byte, below 512, and a write keeps the form. The form is the model's choice
(log 6). -/
theorem stepKeepsRamCanonical : Obligations.StepKeepsRamCanonical :=
  step_keeps (fun _ _ hstore _ hs => (congrArg (fun m : Store => m.ram.wf) hstore).trans hs) exec_keeps_ramCanonical

end Sys2Proof.Machine
end

section
/-! The byte and the data line of a capture session. -/

namespace Sys2Proof.Machine

/-- `CaptureClean` reads five fields of the engine: it carries over to a state that has the same line, byte, bit counter and
configuration and is armed only if the first is. -/
theorem CaptureClean.of_fields {s t : State} (hs : CaptureClean s)
    (hfsm : t.engine.fsm ≠ .disarmed → s.engine.fsm ≠ .disarmed) (hcfg : t.engine.cfg = s.engine.cfg)
    (hline : t.engine.dataOut = s.engine.dataOut) (hbits : t.engine.bitssent = s.engine.bitssent)
    (hbyte : t.engine.curByte = s.engine.curByte) : CaptureClean t := by
  intro ha hc
  rw [hcfg] at hc ⊢
  rw [hline, hbits, hbyte]
  exact hs (hfsm ha) hc

theorem captureClean_of_disarmed {s : State} (hd : s.engine.fsm = .disarmed) : CaptureClean s :=
  fun ha => absurd hd ha

/-- An empty byte is clean, whatever has been sampled. -/
theorem captureClean_bits_of_empty {e : Engine} (hline : e.dataOut = false) (hbyte : e.curByte = 0#8) :
    e.dataOut = false ∧ ∀ k : Nat, k < 8 → e.bitssent.toNat ≤ k →
      e.curByte.getLsbD (if e.cfg.getLsbD 2 then 7 - k else k) = false :=
  ⟨hline, fun _ _ _ => hbyte ▸ BitVec.getLsbD_zero⟩

/-- A bit-cell that comes later than `k` carries another bit of the byte, in either order (R117). -/
theorem widx_ne_of_lt {k : BitVec 3} {j : Nat} (msb : Bool) (hj : j < 8) (hk : k.toNat < j) :
    (if msb then 7 - j else j) ≠ widx k msb := by
  cases msb <;> simp [widx] <;> omega

theorem widx_lt (k : BitVec 3) (msb : Bool) : widx k msb < 8 := by
  have := k.isLt
  unfold widx
  split <;> omega

/-- Sampling bit-cell `bitssent` leaves the bits of the later cells alone; after the eighth the byte is 0 again (R125). -/
theorem State.bitCapture_keeps_captureClean (s : State) (hs : CaptureClean s) : CaptureClean s.bitCapture := by
  rw [State.bitCapture_spec]
  dsimp only
  split
  · intro ha hc
    exact captureClean_bits_of_empty (hs ha hc).1 rfl
  · next hlast =>
    intro ha hc
    obtain ⟨hline, hclean⟩ := hs ha hc
    refine ⟨hline, fun j hj hle => ?_⟩
    have hlt : s.engine.bitssent.toNat < j := by
      have hnext : (s.engine.bitssent + 1#3).toNat = s.engine.bitssent.toNat + 1 := by bv_omega
      exact Nat.lt_of_succ_le (hnext.symm.trans_le hle)
    dsimp only
    rw [getLsbD_setBit _ _ _ _ (widx_lt _ _) (by split <;> omega), if_neg (widx_ne_of_lt _ hj hlt)]
    exact hclean j hj hlt.le

/-- While emitting nothing is claimed, and `bit_emit` does not change the direction. -/
theorem State.bitEmit_captureClean (s : State) (he : s.engine.cfg.getLsbD 0 = false) : CaptureClean s.bitEmit := by
  have hcfg : s.bitEmit.engine.cfg = s.engine.cfg := by
    rw [State.bitEmit_spec]
    split <;> rfl
  intro _ hc
  simp_all

theorem State.transfer_keeps_captureClean (s : State) (low : Bool) (hs : CaptureClean s) :
    CaptureClean (s.transfer low) := by
  rw [State.transfer_spec]
  split
  · split
    · exact s.bitCapture_keeps_captureClean hs
    · next he => exact s.bitEmit_captureClean (by simpa using he)
  · exact hs

theorem State.tick_keeps_captureClean (s : State) (hs : CaptureClean s) : CaptureClean s.tick := by
  have htoggle : ∀ u : State, CaptureClean u → CaptureClean u.togglePhase := fun _ hu => hu
  have hstrobe : CaptureClean s.strobeClock := hs
  rcases s.tick_spec with ⟨-, h⟩ | ⟨hf, -, h⟩ | ⟨hf, -, -, h⟩ | ⟨hf, -, -, h⟩ | ⟨-, h⟩ <;> rw [h]
  · exact hs
  · refine htoggle _ ?_
    rw [State.gapFirstOne_spec]
    exact hstrobe.of_fields (fun _ => by simp [hf]) rfl rfl rfl rfl
  · refine htoggle _ ?_
    rw [State.gapCount_spec]
    intro ha hc
    obtain ⟨hline, hclean⟩ := hstrobe ha hc
    exact ⟨(if_pos hc).trans hline, hclean⟩
  · refine htoggle _ (State.transfer_keeps_captureClean _ _ ?_)
    exact hstrobe.of_fields (fun _ => by simp [hf]) rfl rfl rfl rfl
  · exact htoggle _ (State.transfer_keeps_captureClean _ _ hstrobe)

/-- A capture session starts with the line low and an empty byte (R127). -/
theorem State.startSession_captureClean (s : State) : CaptureClean (s.startSession.setFsm .gap) := by
  rw [State.startSession_spec]
  intro _ hc
  exact captureClean_bits_of_empty rfl (if_pos hc)

theorem exec_keeps_captureClean (i : Instr) (s t : State) (hs : CaptureClean s) (h : exec i s = .next t) :
    CaptureClean t := by
  cases exec_effect h with
  | tick => exact s.tick_keeps_captureClean hs
  | arm _ => exact s.startSession_captureClean
  | disarm => exact captureClean_of_disarmed (by simp [State.endSession_spec])
  | reset => exact captureClean_of_disarmed rfl
  | configured hd => exact captureClean_of_disarmed hd
  | push c => exact hs.of_fields (by simp) (by simp) (by simp) (by simp) (by simp)
  | pull v => exact hs.of_fields (by simp) (by simp) (by simp) (by simp) (by simp)
  | _ => exact hs

/-- Settles O50: a tick samples its own bit-cell only, and `ARM` starts with the line and the byte at 0. -/
theorem stepKeepsCaptureClean : Obligations.StepKeepsCaptureClean :=
  step_keeps (fun _ _ _ he hs => hs.of_fields (by simp [he]) (by rw [he]) (by rw [he]) (by rw [he]) (by rw [he]))
    exec_keeps_captureClean

end Sys2Proof.Machine
end

section
/-! The fields of the `STATUS` word. -/

namespace Sys2Proof.Machine

/-! ### The fields wider than one bit -/

theorem statusWord_fsm (s : State) : s.statusWord.extractLsb' 0 2 = s.engine.fsm.code := by
  unfold State.statusWord
  rw [BitVec.extractLsb'_append_eq_of_add_le (by decide)]
  exact BitVec.extractLsb'_eq_self

theorem statusWord_refill (s : State) : s.statusWord.extractLsb' 5 2 = refillCode s.store.refill := by
  unfold State.statusWord
  repeat rw [BitVec.extractLsb'_append_eq_of_le (by decide)]
  rw [BitVec.extractLsb'_append_eq_of_add_le (by decide)]
  exact BitVec.extractLsb'_eq_self

theorem statusWord_cur (s : State) : s.statusWord.extractLsb' 8 8 = s.store.cur := by
  unfold State.statusWord
  repeat rw [BitVec.extractLsb'_append_eq_of_le (by decide)]
  rw [BitVec.extractLsb'_append_eq_of_add_le (by decide)]
  exact BitVec.extractLsb'_eq_self

theorem statusWord_bitssent (s : State) : s.statusWord.extractLsb' 16 3 = s.engine.bitssent := by
  unfold State.statusWord
  repeat rw [BitVec.extractLsb'_append_eq_of_le (by decide)]
  rw [BitVec.extractLsb'_append_eq_of_add_le (by decide)]
  exact BitVec.extractLsb'_eq_self

theorem statusWord_curByte (s : State) : s.statusWord.extractLsb' 24 8 = s.engine.curByte := by
  unfold State.statusWord
  repeat rw [BitVec.extractLsb'_append_eq_of_le (by decide)]
  exact BitVec.extractLsb'_eq_self

/-! ### The single bits -/

theorem statusWord_flags (s : State) :
    s.statusWord.getLsbD 20 = s.flags.underrun ∧ s.statusWord.getLsbD 21 = s.flags.abort ∧
      s.statusWord.getLsbD 22 = s.flags.cmderr := by
  simp only [State.statusWord, BitVec.getLsbD_append]
  simp

theorem statusWord_armed_ph (s : State) :
    s.statusWord.getLsbD 2 = decide (s.engine.fsm ≠ .disarmed) ∧ s.statusWord.getLsbD 3 = s.engine.ph := by
  simp only [State.statusWord, BitVec.getLsbD_append]
  simp [State.armed]

theorem statusWord_sel (s : State) : s.statusWord.getLsbD 4 = decide (s.store.sel = .buf1) := by
  simp only [State.statusWord, BitVec.getLsbD_append]
  cases s.store.sel <;> simp [BufId.bit]

theorem statusWord_reserved (s : State) :
    s.statusWord.getLsbD 7 = false ∧ s.statusWord.getLsbD 19 = false ∧ s.statusWord.getLsbD 23 = false := by
  simp only [State.statusWord, BitVec.getLsbD_append]
  simp

/-! ### The statement -/

/-- A format Z row whose operation has no operand to check spells it as `SpelledZ` says (R62, R67). -/
theorem spelledZ_of_decodeFormat {op : Byte} {i : Instr} (hwf : i.wf = true)
    (h : ∀ w : Word, opField w = op → decodeFormat w = formatZ w i) : SpelledZ op i := by
  intro w hw
  rw [decodeWord, h w hw, formatZ, imm24Field]
  split
  · exact if_pos hwf
  · rfl

/-- Settles O34, field by field. -/
theorem statusWordLayout : Obligations.StatusWordLayout := by
  refine ⟨fun s => ?_, by decide, spelledZ_of_decodeFormat rfl fun w hw => by simp [decodeFormat, hw]⟩
  obtain ⟨hunderrun, habort, hcmderr⟩ := statusWord_flags s
  obtain ⟨harmed, hph⟩ := statusWord_armed_ph s
  obtain ⟨h7, h19, h23⟩ := statusWord_reserved s
  refine ⟨?fsm, harmed, hph, statusWord_sel s, ?refill, h7, statusWord_cur s, statusWord_bitssent s, h19, hunderrun, habort,
    hcmderr, h23, statusWord_curByte s, rfl⟩
  case fsm =>
    rw [statusWord_fsm]
    cases s.engine.fsm <;> rfl
  case refill =>
    rw [statusWord_refill]
    rcases s.store.refill with - | (- | -) <;> rfl

end Sys2Proof.Machine
end

section
/-! Who moves the engine state, and who sets a sticky flag. -/

namespace Sys2Proof.Machine

/-- Settles O52: of all the effects only those of `ARM`, `TICK`, `DISARM` and `RESET` reach `fsm`. -/
theorem engineStateTransitions : Obligations.EngineStateTransitions := by
  intro i s t h
  cases exec_effect h with
  | arm hd => exact .inr (.inl ⟨rfl, hd, rfl⟩)
  | tick =>
    obtain hsame | ⟨hgap, hxfer⟩ := s.tick_fsm
    · exact .inl hsame
    · exact .inr (.inr (.inl ⟨rfl, hgap, hxfer⟩))
  | disarm => exact .inr (.inr (.inr ⟨.inl rfl, by simp [State.endSession_spec]⟩))
  | reset => exact .inr (.inr (.inr ⟨.inr rfl, rfl⟩))
  | push c => left; simp
  | pull v => left; simp
  | _ => exact .inl rfl

/-- What an operation can do to the flags: nothing, one of the three sets of R160, or one of the two ways to clear (R170, R180). -/
theorem exec_flags {i : Instr} {s t : State} (h : exec i s = .next t) :
    t.flags = s.flags ∨
    (t.flags = s.flags.set .underrun ∧ (i = .tick ∨ i = .pull ∨ ∃ c, i = .push c)) ∨
    (t.flags = s.flags.set .abort ∧ i = .disarm) ∨
    t = s.refuse ∨
    (∃ m, i = .clrerr m ∧ t.flags = s.flags.clear m) ∨
    (i = .reset ∧ t.flags = Flags.reset) := by
  cases exec_effect h with
  | refused => exact .inr (.inr (.inr (.inl rfl)))
  | push c =>
    obtain hf | hf := s.stepCursor_flags
    · left; simp [hf]
    · right; left; simp [hf]
  | pull v =>
    obtain hf | hf := s.stepCursor_flags
    · left; simp [hf]
    · right; left; simp [hf]
  | tick =>
    obtain hf | hf := s.tick_portUse.flags
    · exact .inl hf
    · exact .inr (.inl ⟨hf, .inl rfl⟩)
  | disarm =>
    obtain hf | hf := s.endSession_flags
    · exact .inl hf
    · exact .inr (.inr (.inl ⟨hf, rfl⟩))
  | cleared m => exact .inr (.inr (.inr (.inr (.inl ⟨m, rfl, rfl⟩))))
  | reset => exact .inr (.inr (.inr (.inr (.inr ⟨rfl, rfl⟩))))
  | arm _ => left; simp [State.startSession_spec]
  | _ => exact .inl rfl

/-- Raising an event never takes a flag away (R22). -/
theorem Flags.get_set_of_get {f : Flags} {e : Event} (e' : Event) (h : f.get e = true) : (f.set e').get e = true := by
  simp [Flags.get_set, h]

theorem Flags.get_reset (e : Event) : Flags.reset.get e = false := by cases e <;> rfl

/-- A flag that an operation sets was set by an operation that raises its event. -/
theorem exec_raises {i : Instr} {s t : State} {e : Event} (h : exec i s = .next t) (hs : s.flags.get e = false)
    (ht : t.flags.get e = true) :
    (e = .underrun ∧ (i = .tick ∨ i = .pull ∨ ∃ c, i = .push c)) ∨ (e = .abort ∧ i = .disarm) ∨
      (e = .cmdRefused ∧ t = s.refuse) := by
  have hset : ∀ e', t.flags = s.flags.set e' → e = e' := by
    intro e' hf
    simpa [hf, Flags.get_set, hs] using ht
  rcases exec_flags h with hf | ⟨hf, hi⟩ | ⟨hf, hi⟩ | hr | ⟨m, -, hf⟩ | ⟨-, hf⟩
  · simp [hf, hs] at ht
  · exact .inl ⟨hset _ hf, hi⟩
  · exact .inr (.inl ⟨hset _ hf, hi⟩)
  · exact .inr (.inr ⟨hset .cmdRefused (by rw [hr]; rfl), hr⟩)
  · simp [hf, Flags.get_clear, hs] at ht
  · simp [hf, Flags.get_reset] at ht

/-- A flag that is set stays set unless `RESET` or a `CLRERR` that selects it takes it away (R22). -/
theorem exec_keeps_flag {i : Instr} {s t : State} {e : Event} (h : exec i s = .next t) (hs : s.flags.get e = true)
    (hreset : i ≠ .reset) (hclear : ∀ c : Byte, i = .clrerr c → c.getLsbD e.code = false) : t.flags.get e = true := by
  rcases exec_flags h with hf | ⟨hf, -⟩ | ⟨hf, -⟩ | hr | ⟨m, hi, hf⟩ | ⟨hi, -⟩
  · rw [hf, hs]
  · exact hf ▸ Flags.get_set_of_get _ hs
  · exact hf ▸ Flags.get_set_of_get _ hs
  · exact hr ▸ Flags.get_set_of_get .cmdRefused hs
  · rw [hf, Flags.get_clear, hs, hclear m hi]
    rfl
  · exact absurd hi hreset

/-- Settles O54. -/
theorem stickyFlagsStaySet : Obligations.StickyFlagsStaySet := by
  refine ⟨fun i s t e h hs hreset hclear => exec_keeps_flag h hs hreset hclear, ?underrun, ?abort, ?cmderr⟩
  case underrun =>
    intro i s t h hs ht
    simpa using exec_raises (e := .underrun) h hs ht
  case abort =>
    intro i s t h hs ht
    simpa using exec_raises (e := .abort) h hs ht
  case cmderr =>
    intro i s t h hs ht
    simpa [State.refuse_spec] using exec_raises (e := .cmdRefused) h hs ht

end Sys2Proof.Machine
end

section
/-! Noninterference: replacing the sticky flags before an operation commutes with the operation, up to the flags it leaves. -/

namespace Sys2Proof.Machine

/-- `u` is `t` with other sticky flags. -/
def SameButFlags (t u : State) : Prop := ∃ g, u = t.withFlags g

/-- A choice that reads no flag. -/
theorem SameButFlags.ite {p : Prop} [Decidable p] {t t' u u' : State} (ht : SameButFlags t u) (ht' : SameButFlags t' u') :
    SameButFlags (if p then t else t') (if p then u else u') := by
  split
  · exact ht
  · exact ht'

/-! ### The procedures -/

theorem State.stepCursor_withFlags (s : State) (f : Flags) : SameButFlags s.stepCursor (s.withFlags f).stepCursor :=
  .ite ⟨{ f with underrun := f.underrun || s.store.refill.isSome }, rfl⟩ ⟨f, rfl⟩

theorem State.push_withFlags (s : State) (f : Flags) (c : Byte) : SameButFlags (s.push c) ((s.withFlags f).push c) := by
  obtain ⟨g, hg⟩ := s.stepCursor_withFlags f
  exact ⟨g, by rw [State.push_spec, State.push_spec, hg]; rfl⟩

theorem State.bitCapture_withFlags (s : State) (f : Flags) : SameButFlags s.bitCapture (s.withFlags f).bitCapture := by
  obtain ⟨g, hg⟩ := s.stepCursor_withFlags f
  rw [State.bitCapture_spec, State.bitCapture_spec, hg]
  exact .ite ⟨g, rfl⟩ ⟨f, rfl⟩

theorem State.bitEmit_withFlags (s : State) (f : Flags) : SameButFlags s.bitEmit (s.withFlags f).bitEmit := by
  obtain ⟨g, hg⟩ := s.stepCursor_withFlags f
  rw [State.bitEmit_spec, State.bitEmit_spec, hg]
  exact .ite ⟨g, rfl⟩ ⟨f, rfl⟩

theorem State.transfer_withFlags (s : State) (f : Flags) (low : Bool) :
    SameButFlags (s.transfer low) ((s.withFlags f).transfer low) := by
  rw [State.transfer_spec, State.transfer_spec]
  exact .ite (.ite (s.bitCapture_withFlags f) (s.bitEmit_withFlags f)) ⟨f, rfl⟩

theorem State.gapFirstOne_withFlags (s : State) (f : Flags) (low : Bool) :
    SameButFlags (s.gapFirstOne low) ((s.withFlags f).gapFirstOne low) :=
  .ite ⟨f, rfl⟩ ⟨f, rfl⟩

theorem State.gapCount_withFlags (s : State) (f : Flags) : SameButFlags s.gapCount (s.withFlags f).gapCount := by
  rw [State.gapCount_spec, State.gapCount_spec]
  exact ⟨f, rfl⟩

theorem State.gapTick_withFlags (s : State) (f : Flags) (low : Bool) :
    SameButFlags (s.gapTick low) ((s.withFlags f).gapTick low) :=
  .ite (s.gapFirstOne_withFlags f low) (.ite (s.gapCount_withFlags f) ((s.setFsm .xfer).transfer_withFlags f low))

theorem State.tick_withFlags (s : State) (f : Flags) : SameButFlags s.tick (s.withFlags f).tick := by
  simp only [State.tick, State.withFlags_engine]
  cases s.engine.fsm with
  | disarmed => exact ⟨f, rfl⟩
  | gap =>
    obtain ⟨g, hg⟩ := s.strobeClock.gapTick_withFlags f (!s.engine.ph)
    exact ⟨g, congrArg State.togglePhase hg⟩
  | xfer =>
    obtain ⟨g, hg⟩ := s.strobeClock.transfer_withFlags f (!s.engine.ph)
    exact ⟨g, congrArg State.togglePhase hg⟩

theorem State.startSession_withFlags (s : State) (f : Flags) : (s.withFlags f).startSession = s.startSession.withFlags f := by
  rw [State.startSession_spec, State.startSession_spec]
  rfl

theorem State.endSession_withFlags (s : State) (f : Flags) : SameButFlags s.endSession (s.withFlags f).endSession := by
  rw [State.endSession_spec, State.endSession_spec]
  exact ⟨_, rfl⟩

/-! ### The operations -/

/-- Both results are next states, and they differ in the flags alone. -/
def AgreeButFlags (r r' : Result) : Prop := ∃ t u, r = .next t ∧ r' = .next u ∧ SameButFlags t u

theorem AgreeButFlags.next {t u : State} (h : SameButFlags t u) : AgreeButFlags (.next t) (.next u) :=
  ⟨t, u, rfl, rfl, h⟩

theorem AgreeButFlags.refuse (s : State) (f : Flags) : AgreeButFlags (.next s.refuse) (.next (s.withFlags f).refuse) :=
  .next ⟨_, rfl⟩

theorem AgreeButFlags.rsp {t u : State} (v : Word) (h : SameButFlags t u) :
    AgreeButFlags (.next (t.rsp v)) (.next (u.rsp v)) := by
  obtain ⟨g, rfl⟩ := h
  exact .next ⟨g, rfl⟩

/-- A command with a guard that reads no flag agrees if its accepted branch does: the refused branch always does. -/
theorem AgreeButFlags.guarded {p : Prop} [Decidable p] {s : State} {f : Flags} {r r' : Result} (h : AgreeButFlags r r') :
    AgreeButFlags (if p then .next s.refuse else r) (if p then .next (s.withFlags f).refuse else r') := by
  split
  · exact .refuse s f
  · exact h

theorem exec_agreeButFlags (i : Instr) (s : State) (f : Flags) (hi : i ≠ .rdstatus) :
    AgreeButFlags (exec i s) (exec i (s.withFlags f)) := by
  cases i with
  | rdstatus => exact absurd rfl hi
  | setsig a c =>
    simp only [exec, execSetsig]
    split
    · exact .rsp _ ⟨f, rfl⟩
    · exact .refuse s f
  | rdsig a =>
    simp only [exec, execRdsig]
    split
    · exact .rsp _ ⟨f, rfl⟩
    · exact .refuse s f
  | bufwr a b c =>
    simp only [exec, execBufwr]
    split
    · exact .rsp _ ⟨f, rfl⟩
    · exact .refuse s f
  | bufrd a b =>
    simp only [exec, execBufrd]
    split
    · exact .rsp _ ⟨f, rfl⟩
    · exact .refuse s f
  | push c => exact .guarded (.rsp _ (s.push_withFlags f c))
  | pull =>
    simp only [exec, execPull, State.pull_spec]
    exact .guarded (.rsp _ (s.stepCursor_withFlags f))
  | crcrst => exact .guarded (.rsp _ ⟨f, rfl⟩)
  | crcupd c => exact .guarded (.rsp _ ⟨f, rfl⟩)
  | wrseed v => exact .guarded (.rsp _ ⟨f, rfl⟩)
  | arm => exact .guarded (.rsp _ ⟨f, congrArg (State.setFsm · .gap) (s.startSession_withFlags f)⟩)
  | wrcfg c => exact .guarded (.rsp _ ⟨f, rfl⟩)
  | wrgap g => exact .guarded (.rsp _ ⟨f, rfl⟩)
  | clrerr m => exact .guarded (.rsp _ ⟨_, rfl⟩)
  | disarm => exact .rsp _ (.ite (s.endSession_withFlags f) ⟨f, rfl⟩)
  | tick => exact .next (s.tick_withFlags f)
  | reset => exact .next ⟨_, rfl⟩
  | poll => exact .rsp _ ⟨f, rfl⟩
  | rdsigs => exact .rsp _ ⟨f, rfl⟩
  | consume => exact .rsp _ ⟨f, rfl⟩
  | wrside d => exact .rsp _ ⟨f, rfl⟩
  | rdcrc => exact .rsp _ ⟨f, rfl⟩
  | rdpos => exact .rsp _ ⟨f, rfl⟩
  | rdbits => exact .rsp _ ⟨f, rfl⟩
  | rdgap => exact .rsp _ ⟨f, rfl⟩
  | rdcfg => exact .rsp _ ⟨f, rfl⟩
  | rdgaplen => exact .rsp _ ⟨f, rfl⟩

/-- Settles O55. `RDSTATUS` changes nothing but its response, so its two runs agree in every other part. -/
theorem stickyFlagsAreNeverRead : Obligations.StickyFlagsAreNeverRead := by
  intro i s t f h
  by_cases hi : i = .rdstatus
  · subst hi
    cases h
    exact ⟨_, rfl, rfl, rfl, rfl, rfl, rfl, rfl, fun hne => absurd rfl hne⟩
  · obtain ⟨t', u, ht, hu, g, rfl⟩ := exec_agreeButFlags i s f hi
    obtain rfl : t' = t := by simpa [ht] using h
    exact ⟨t'.withFlags g, hu, rfl, rfl, rfl, rfl, rfl, rfl, fun _ => rfl⟩

end Sys2Proof.Machine
end

section
/-! One step, by the entry at the head of `inputs`: the operation or the step of the environment that it is. -/

namespace Sys2Proof.Machine

variable {s : State} {rest : List EnvStep}

theorem step_pins {p : Pins} (h : s.inputs = .pins p :: rest) : step s = .next ((s.withPins p).withInputs rest) := by
  simp [step, fetch, h]

/-- The tick of an instant is ordered first; what follows it stays on the ports (R47). -/
theorem step_tick {p : Presented} (h : s.inputs = .present p :: rest) (hrst : p.rst = false) (htick : p.tick = true) :
    step s = exec .tick (s.withInputs (p.afterTick ++ rest)) := by
  have hf : fetch s = .operation .tickStrobe (s.withInputs (p.afterTick ++ rest)) := by
    simp [fetch, h, arbitrate, hrst, htick]
  rw [step, hf]
  rfl

/-- A reset is ordered before a tick and a command of its instant, and drops them (R180). -/
theorem step_reset {p : Presented} (h : s.inputs = .present p :: rest) (hrst : p.rst = true) :
    step s = exec .reset (s.withInputs rest) := by
  have hf : fetch s = .operation .rstStrobe (s.withInputs rest) := by simp [fetch, h, arbitrate, hrst]
  rw [step, hf]
  rfl

theorem step_command {w : Word} {i : Instr} (h : s.inputs = .present (Presented.command w) :: rest)
    (hd : decode (.word w) = some i) : step s = exec i (s.withInputs rest) := by
  have hf : fetch s = .operation (.word w) (s.withInputs rest) := by
    simp [fetch, h, arbitrate, Presented.command]
  simp [step, hf, dispatched, hd]

/-- An instant at which nothing is presented passes. -/
theorem step_emptyInstant (h : s.inputs = .present { rst := false, tick := false, cmd := none } :: rest) :
    step s = .next (s.withInputs rest) := by
  simp [step, fetch, h, arbitrate]

theorem step_idle (h : s.inputs = []) : step s = .next s := by
  simp [step, fetch, h]

/-- Settles O6, by the entry at the head of the inputs. -/
theorem stepRunsTheDecodedOperation : Obligations.StepRunsTheDecodedOperation :=
  ⟨fun _ _ _ _ h hd => step_command h hd, fun _ _ h => step_tick h rfl rfl, fun _ _ h => step_reset h rfl,
    fun _ _ _ h => step_pins h, fun _ _ h => step_emptyInstant h, fun _ h => step_idle h⟩

/-- Settles O7: what of the instant is ordered after its tick is the command. -/
theorem tickGoesBeforeCommand : Obligations.TickGoesBeforeCommand :=
  fun _ _ _ h => step_tick h rfl rfl

end Sys2Proof.Machine
end

section
/-! One captured byte, cell by cell: a cell is a pin change, the low-phase tick that samples it, and the high-phase tick (R43, R125,
R126). -/

namespace Sys2Proof.Machine

/-! ### Several steps -/

theorem runSteps_succ {s t : State} (n : Nat) (h : step s = .next t) : runSteps (n + 1) s = runSteps n t := by
  simp [runSteps, h]

theorem runSteps_add {s t : State} {m : Nat} (n : Nat) (h : runSteps m s = .next t) :
    runSteps (m + n) s = runSteps n t := by
  induction m generalizing s with
  | zero =>
    cases h
    rw [Nat.zero_add]
  | succ m ih =>
    rw [Nat.add_right_comm]
    simp only [runSteps] at h ⊢
    cases hs : step s with
    | next u =>
      rw [hs] at h
      exact ih h
    | fault r => cases r
    | refused r => simp [hs] at h

/-! ### A bit-cell -/

/-- Which bit of a byte its cell `k` carries (R43, R117). -/
def bitOfCell (msb : Bool) (k : Nat) : Nat := if msb then 7 - k else k

theorem bitOfCell_lt (msb : Bool) {k : Nat} (hk : k < 8) : bitOfCell msb k < 8 := by
  unfold bitOfCell
  split <;> omega

theorem bitOfCell_inj (msb : Bool) {j k : Nat} (hj : j < 8) (hk : k < 8) : bitOfCell msb j = bitOfCell msb k ↔ j = k := by
  unfold bitOfCell
  split <;> omega

/-- In either order the eight cells carry the eight bits. -/
theorem bitOfCell_bitOfCell (msb : Bool) {j : Nat} (hj : j < 8) : bitOfCell msb (bitOfCell msb j) = j := by
  cases msb with
  | false => rfl
  | true => exact Nat.sub_sub_self (Nat.le_of_lt_succ hj)

theorem widx_ofNat (msb : Bool) {n : Nat} (hn : n < 8) : widx (BitVec.ofNat 3 n) msb = bitOfCell msb n := by
  simp [widx, bitOfCell, Nat.mod_eq_of_lt hn]

/-- The inputs of bit-cell `k` of a byte. -/
def bitCell (p : Pins) (msb : Bool) (v : Byte) (k : Nat) : List EnvStep :=
  [.pins { p with dataIn := v.getLsbD (bitOfCell msb k) }, .present Presented.timer, .present Presented.timer]

/-- The inputs of the bit-cells of a byte from the `n`-th on. -/
def cellsFrom (p : Pins) (msb : Bool) (v : Byte) (n : Nat) : List EnvStep :=
  (List.range' n (8 - n)).flatMap (bitCell p msb v)

theorem cellsFrom_zero (p : Pins) (msb : Bool) (v : Byte) : cellsFrom p msb v 0 = cellsOf p msb v := rfl

theorem cellsFrom_eight (p : Pins) (msb : Bool) (v : Byte) : cellsFrom p msb v 8 = [] := rfl

theorem cellsFrom_succ (p : Pins) (msb : Bool) (v : Byte) {n : Nat} (hn : n < 8) :
    cellsFrom p msb v n = bitCell p msb v n ++ cellsFrom p msb v (n + 1) := by
  have hlen : 8 - n = 8 - (n + 1) + 1 := by omega
  rw [cellsFrom, hlen, List.range'_succ]
  rfl

/-- A low-phase Transferring tick in CAPTURE direction (R120). -/
theorem State.tick_capture {s : State} (hfsm : s.engine.fsm = .xfer) (hph : s.engine.ph = false)
    (hdir : s.engine.cfg.getLsbD 0 = true) : s.tick = s.strobeClock.bitCapture.togglePhase := by
  rcases s.tick_spec with ⟨hf, -⟩ | ⟨hf, -⟩ | ⟨hf, -⟩ | ⟨hf, -⟩ | ⟨-, h⟩
  case inr.inr.inr.inr => rw [h, State.transfer_spec, if_pos (by simp [hph]), if_pos (by simpa using hdir)]
  all_goals simp [hfsm] at hf

/-- A high-phase Transferring tick moves no data (R126). -/
theorem State.tick_high {s : State} (hfsm : s.engine.fsm = .xfer) (hph : s.engine.ph = true) :
    s.tick = s.strobeClock.togglePhase := by
  rcases s.tick_spec with ⟨hf, -⟩ | ⟨hf, -⟩ | ⟨hf, -⟩ | ⟨hf, -⟩ | ⟨-, h⟩
  case inr.inr.inr.inr => rw [h, State.transfer_spec, if_neg (by simp [hph])]
  all_goals simp [hfsm] at hf

theorem State.stepCursor_withInputs (s : State) (x : List EnvStep) :
    (s.withInputs x).stepCursor = s.stepCursor.withInputs x := by
  unfold State.stepCursor
  rw [apply_ite (State.withInputs · x)]
  rfl

theorem State.stepCursor_withEngine (s : State) (e : Engine) :
    (s.withEngine e).stepCursor = s.stepCursor.withEngine e := by
  simpa [State.withEngine] using s.stepCursor_of_parts s.crc e

/-- `bit_capture()` depends neither on what is still to be presented nor on the clock line. -/
theorem State.bitCapture_withInputs_strobeClock (s : State) (x : List EnvStep) :
    (s.withInputs x).strobeClock.bitCapture =
      (s.bitCapture.withEngine { s.bitCapture.engine with clkOut := s.engine.ph }).withInputs x := by
  have hstep : (s.withInputs x).strobeClock.stepCursor =
      (s.stepCursor.withInputs x).withEngine s.strobeClock.engine := by
    rw [← State.stepCursor_withInputs]
    exact State.stepCursor_withEngine _ _
  rw [State.bitCapture_spec, State.bitCapture_spec, hstep]
  by_cases h : s.engine.bitssent = 7#3
  · simp only [State.strobeClock_engine, State.withInputs_engine, h, ↓reduceIte]
    rfl
  · simp only [State.strobeClock_engine, State.withInputs_engine, h, ↓reduceIte]
    rfl

theorem State.bitCapture_engine_frame (s : State) :
    s.bitCapture.engine.fsm = s.engine.fsm ∧ s.bitCapture.engine.ph = s.engine.ph := by
  rw [State.bitCapture_spec]
  dsimp only
  split
  · exact ⟨rfl, rfl⟩
  · exact ⟨rfl, rfl⟩

/-- The step of a tick that samples a bit. -/
theorem step_captureTick {s : State} (rest : List EnvStep) (hfsm : s.engine.fsm = .xfer) (hph : s.engine.ph = false)
    (hdir : s.engine.cfg.getLsbD 0 = true) :
    step (s.withInputs (.present Presented.timer :: rest)) =
      .next ((s.bitCapture.withEngine { s.bitCapture.engine with clkOut := false, ph := true }).withInputs rest) := by
  obtain ⟨-, hphase⟩ := s.bitCapture_engine_frame
  rw [step_tick rfl rfl rfl]
  refine congrArg Host.Outcome.next ((State.tick_capture (s := s.withInputs rest) hfsm hph hdir).trans ?_)
  rw [State.bitCapture_withInputs_strobeClock]
  simp [State.togglePhase, State.withEngine, State.withInputs, hphase, hph]

/-- The step of a tick in the high phase. -/
theorem step_highTick {s : State} (rest : List EnvStep) (hfsm : s.engine.fsm = .xfer) (hph : s.engine.ph = true) :
    step (s.withInputs (.present Presented.timer :: rest)) =
      .next ((s.withEngine { s.engine with clkOut := true, ph := false }).withInputs rest) := by
  rw [step_tick rfl rfl rfl]
  refine congrArg Host.Outcome.next ((State.tick_high (s := s.withInputs rest) hfsm hph).trans ?_)
  simp [State.strobeClock, State.togglePhase, State.withEngine, State.withInputs, hph]

/-- What a bit-cell leaves of the state in which its bit stands on the pin: one bit sampled, the clock line high. -/
def State.afterCell (s : State) : State := s.bitCapture.withEngine { s.bitCapture.engine with clkOut := true }

/-- The three steps of a bit-cell. -/
theorem runSteps_bitCell {s : State} {p : Pins} {rest : List EnvStep} (hfsm : s.engine.fsm = .xfer)
    (hph : s.engine.ph = false) (hdir : s.engine.cfg.getLsbD 0 = true)
    (hin : s.inputs = .pins p :: .present Presented.timer :: .present Presented.timer :: rest) :
    runSteps 3 s = .next ((s.withPins p).afterCell.withInputs rest) := by
  obtain ⟨hxfer, hphase⟩ := (s.withPins p).bitCapture_engine_frame
  have hlow := step_captureTick (s := s.withPins p) (.present Presented.timer :: rest) hfsm hph hdir
  have hhigh := step_highTick
    (s := (s.withPins p).bitCapture.withEngine { (s.withPins p).bitCapture.engine with clkOut := false, ph := true })
    rest (hxfer.trans hfsm) rfl
  rw [runSteps_succ 2 (step_pins hin), runSteps_succ 1 hlow, runSteps_succ 0 hhigh]
  simp [runSteps, State.afterCell, State.withEngine, hphase, hph]

/-! ### The cells of a byte -/

/-- `s`, at the start of a byte, with `n` cells of it taken: `c` is the byte assembled so far. -/
def State.midByte (s : State) (n : Nat) (c : Byte) (clk level : Bool) (x : List EnvStep) : State :=
  { s with
    engine := { s.engine with
      curByte := c, bitssent := BitVec.ofNat 3 n, bitcnt := s.engine.bitcnt + BitVec.ofNat 32 n, clkOut := clk }
    pins := { s.pins with dataIn := level }
    inputs := x }

theorem State.midByte_zero {s : State} (hbits : s.engine.bitssent = 0#3) :
    s.midByte 0 s.engine.curByte s.engine.clkOut s.pins.dataIn s.inputs = s := by
  have h0 : BitVec.ofNat 3 0 = s.engine.bitssent := hbits.symm
  simp [State.midByte, h0]

/-- The first `n` cells have put their bits of `v` into `c`. -/
def CellsSampled (msb : Bool) (v : Byte) (n : Nat) (c : Byte) : Prop :=
  ∀ k < n, c.getLsbD (bitOfCell msb k) = v.getLsbD (bitOfCell msb k)

theorem CellsSampled.succ {msb : Bool} {v c : Byte} {n : Nat} (hn : n < 8) (h : CellsSampled msb v n c) :
    CellsSampled msb v (n + 1) (setBit c (bitOfCell msb n) (v.getLsbD (bitOfCell msb n))) := by
  intro k hk
  have hk8 : k < 8 := by omega
  rw [getLsbD_setBit _ _ _ _ (bitOfCell_lt msb hn) (bitOfCell_lt msb hk8)]
  obtain rfl | hlt : k = n ∨ k < n := by omega
  · exact if_pos rfl
  · rw [if_neg ((bitOfCell_inj msb hk8 hn).not.mpr hlt.ne)]
    exact h k hlt

/-- Eight cells determine the byte. -/
theorem CellsSampled.eq {msb : Bool} {v c : Byte} (h : CellsSampled msb v 8 c) : c = v :=
  BitVec.eq_of_getLsbD_eq fun j hj => by
    simpa only [bitOfCell_bitOfCell msb hj] using h (bitOfCell msb j) (bitOfCell_lt msb hj)

theorem State.midByte_stepCursor (s : State) (n : Nat) (c : Byte) (clk level : Bool) (x : List EnvStep) :
    (s.midByte n c clk level x).stepCursor = s.stepCursor.midByte n c clk level x := by
  unfold State.stepCursor
  rw [apply_ite (State.midByte · n c clk level x)]
  rfl

/-- A cell before the eighth. -/
theorem State.afterCell_midByte (s : State) {n : Nat} (c : Byte) (clk level : Bool) (x y : List EnvStep) (hn : n < 7) :
    ((s.midByte n c clk level x).afterCell).withInputs y =
      s.midByte (n + 1) (setBit c (bitOfCell (s.engine.cfg.getLsbD 2) n) level) true level y := by
  have hlast : BitVec.ofNat 3 n ≠ 7#3 := by bv_omega
  rw [State.afterCell, State.bitCapture_spec]
  simp only [State.midByte, hlast, ↓reduceIte, widx_ofNat _ (show n < 8 by omega)]
  simp [State.withEngine, State.withInputs, BitVec.ofNat_add, BitVec.add_assoc]

/-- `s`, at the start of a byte, with the byte `v` captured (R123, R125). -/
def State.afterByte (s : State) (v : Byte) (level : Bool) (x : List EnvStep) : State :=
  { s.stepCursor with
    store := { s.stepCursor.store with ram := s.store.ram.write s.cursorAddr v }
    crc := { s.crc with value := if s.engine.cfg.getLsbD 4 = true then crcUpdate s.crc.value v else s.crc.value }
    engine := { s.engine with
      bitcnt := s.engine.bitcnt + 8#32
      bitssent := 0#3
      pos := s.engine.pos + 1#32
      curByte := 0#8
      clkOut := true }
    pins := { s.pins with dataIn := level }
    inputs := x }

/-- The eighth cell completes the byte. -/
theorem State.afterCell_midByte_seven (s : State) (c : Byte) (clk level : Bool) (x y : List EnvStep) :
    (s.midByte 7 c clk level x).afterCell.withInputs y =
      s.afterByte (setBit c (bitOfCell (s.engine.cfg.getLsbD 2) 7) level) level y := by
  rw [State.afterCell, State.bitCapture_spec, State.midByte_stepCursor]
  simp only [State.midByte, widx_ofNat _ (show 7 < 8 by omega)]
  simp [State.withEngine, State.withInputs, State.afterByte, BitVec.add_assoc]
  rfl

section
variable {s : State} {v : Byte} {rest : List EnvStep}

/-- The first `n` cells of `v`, the eighth not among them, leave a state in mid-byte with their bits sampled. -/
theorem runSteps_cells {n : Nat} (hn : n ≤ 7) (hfsm : s.engine.fsm = .xfer) (hph : s.engine.ph = false)
    (hbits : s.engine.bitssent = 0#3) (hdir : s.engine.cfg.getLsbD 0 = true)
    (hin : s.inputs = cellsOf s.pins (s.engine.cfg.getLsbD 2) v ++ rest) :
    ∃ c clk level, CellsSampled (s.engine.cfg.getLsbD 2) v n c ∧
      runSteps (3 * n) s =
        .next (s.midByte n c clk level (cellsFrom s.pins (s.engine.cfg.getLsbD 2) v n ++ rest)) := by
  induction n with
  | zero =>
    refine ⟨s.engine.curByte, s.engine.clkOut, s.pins.dataIn, fun _ hk => absurd hk (Nat.not_lt_zero _), ?_⟩
    rw [cellsFrom_zero, ← hin, State.midByte_zero hbits]
    rfl
  | succ n ih =>
    obtain ⟨c, clk, level, hsampled, hrun⟩ := ih (by omega)
    refine ⟨_, true, v.getLsbD (bitOfCell (s.engine.cfg.getLsbD 2) n), hsampled.succ (by omega), ?_⟩
    rw [Nat.mul_succ, runSteps_add 3 hrun, cellsFrom_succ _ _ _ (by omega)]
    exact Eq.trans (runSteps_bitCell hfsm hph hdir rfl)
      (congrArg Host.Outcome.next (s.afterCell_midByte c clk _ _ _ (by omega)))

/-- All eight cells of `v`: the byte is complete. -/
theorem runSteps_cellsOf (hfsm : s.engine.fsm = .xfer) (hph : s.engine.ph = false) (hbits : s.engine.bitssent = 0#3)
    (hdir : s.engine.cfg.getLsbD 0 = true) (hin : s.inputs = cellsOf s.pins (s.engine.cfg.getLsbD 2) v ++ rest) :
    ∃ level, runSteps 24 s = .next (s.afterByte v level rest) := by
  obtain ⟨c, clk, level, hsampled, hrun⟩ := runSteps_cells le_rfl hfsm hph hbits hdir hin
  have hbyte : setBit c _ _ = v := (hsampled.succ (by omega)).eq
  refine ⟨v.getLsbD (bitOfCell (s.engine.cfg.getLsbD 2) 7), ?_⟩
  rw [runSteps_add (m := 3 * 7) 3 hrun, cellsFrom_succ _ _ _ (by omega)]
  refine Eq.trans (runSteps_bitCell hfsm hph hdir rfl)
    (congrArg Host.Outcome.next ((s.afterCell_midByte_seven c clk _ _ _).trans ?_))
  rw [hbyte, cellsFrom_eight]
  rfl

end

/-- Settles O46: the eighth cell completes the byte that the cells carry, and stores it under the cursor. -/
theorem captureAssemblesAByte : Obligations.CaptureAssemblesAByte := by
  intro s v rest hfsm hph hbits hdir hin
  obtain ⟨level, hrun⟩ := runSteps_cellsOf hfsm hph hbits hdir hin
  exact ⟨_, hrun, rfl, Memory.read_write_same _ _ _, fun _ ha => Memory.read_write_other _ _ ha, rfl, rfl, rfl, rfl, rfl,
    hfsm, hph, rfl, rfl, rfl, rfl, rfl, s.stepCursor_signals, s.stepCursor_responses⟩

end Sys2Proof.Machine
end

section
/-!
The opcode table from both sides: a word decodes to an operation exactly when it is the word that the encoder writes for it, and
exactly when it matches the operation's row.
-/

namespace Sys2Proof

/-! ### The fields of a word (R62) -/

/-- The four fields of a word determine it. -/
theorem word_eq_iff (w v : Word) :
    w = v ↔ opField w = opField v ∧ aField w = aField v ∧ bField w = bField v ∧ cField w = cField v := by
  constructor
  · rintro rfl
    exact ⟨rfl, rfl, rfl, rfl⟩
  · rintro ⟨hop, ha, hb, hc⟩
    rw [← packFields_fields w, ← packFields_fields v, hop, ha, hb, hc]

theorem packFields_eq_iff (op a b c : Byte) (w : Word) :
    packFields op a b c = w ↔ opField w = op ∧ aField w = a ∧ bField w = b ∧ cField w = c := by
  rw [eq_comm, word_eq_iff]
  simp

theorem packImm16_eq_iff (op : Byte) (v : BitVec 16) (w : Word) :
    packImm16 op v = w ↔ opField w = op ∧ aField w = 0#8 ∧ imm16Field w = v := by
  constructor
  · rintro rfl
    simp
  · rintro ⟨rfl, ha, rfl⟩
    rw [packImm16, ← ha, opField, aField, imm16Field,
      BitVec.extractLsb'_append_extractLsb'_eq_extractLsb' (show 24 = 16 + 8 from rfl),
      BitVec.extractLsb'_append_extractLsb'_eq_extractLsb' (show 16 = 0 + 16 from rfl)]
    exact BitVec.extractLsb'_eq_self

theorem packImm24_eq_iff (op : Byte) (v : BitVec 24) (w : Word) :
    packImm24 op v = w ↔ opField w = op ∧ imm24Field w = v := by
  constructor
  · rintro rfl
    simp
  · rintro ⟨rfl, rfl⟩
    rw [packImm24, opField, imm24Field, BitVec.extractLsb'_append_extractLsb'_eq_extractLsb' (show 24 = 0 + 24 from rfl)]
    exact BitVec.extractLsb'_eq_self

/-- `CMD[23:0]` is 0 when its three bytes are (format Z). -/
theorem imm24Field_eq_zero_iff (w : Word) :
    imm24Field w = 0#24 ↔ aField w = 0#8 ∧ bField w = 0#8 ∧ cField w = 0#8 := by
  simp only [imm24Field, aField, bField, cField, ← BitVec.toNat_inj, BitVec.extractLsb'_toNat, Nat.shiftRight_eq_div_pow,
    BitVec.toNat_ofNat]
  omega

/-- `CMD[23:8]` is 0 when `a` and `b` are (format C). -/
theorem extract_ab_eq_zero_iff (w : Word) : w.extractLsb' 8 16 = 0#16 ↔ aField w = 0#8 ∧ bField w = 0#8 := by
  simp only [aField, bField, ← BitVec.toNat_inj, BitVec.extractLsb'_toNat, Nat.shiftRight_eq_div_pow, BitVec.toNat_ofNat]
  omega

/-- `CMD[15:0]` is 0 when `b` and `c` are (format A). -/
theorem extract_bc_eq_zero_iff (w : Word) : w.extractLsb' 0 16 = 0#16 ↔ bField w = 0#8 ∧ cField w = 0#8 := by
  simp only [bField, cField, ← BitVec.toNat_inj, BitVec.extractLsb'_toNat, Nat.shiftRight_eq_div_pow, BitVec.toNat_ofNat]
  omega

/-! ### The formats: what a word decodes to in a format is encoded by that word -/

section
variable {w : Word} {op : Byte} {j : Instr}

theorem encode_of_formatZ {i : Instr} (h : formatZ w i = some j) (hop : opField w = op)
    (he : encode i = .word (packFields op 0#8 0#8 0#8)) : encode j = .word w := by
  obtain ⟨hzero, rfl⟩ : imm24Field w = 0#24 ∧ i = j := by simpa [formatZ] using h
  exact he.trans (congrArg _ ((packFields_eq_iff ..).mpr ⟨hop, (imm24Field_eq_zero_iff w).mp hzero⟩))

theorem encode_of_formatA {f : Byte → Instr} (h : formatA w f = some j) (hop : opField w = op)
    (he : ∀ a, encode (f a) = .word (packFields op a 0#8 0#8)) : encode j = .word w := by
  obtain ⟨hzero, rfl⟩ : (bField w = 0#8 ∧ cField w = 0#8) ∧ f (aField w) = j := by simpa [formatA] using h
  exact (he _).trans (congrArg _ ((packFields_eq_iff ..).mpr ⟨hop, rfl, hzero⟩))

theorem encode_of_formatAC {f : Byte → Byte → Instr} (h : formatAC w f = some j) (hop : opField w = op)
    (he : ∀ a c, encode (f a c) = .word (packFields op a 0#8 c)) : encode j = .word w := by
  obtain ⟨hb, rfl⟩ : bField w = 0#8 ∧ f (aField w) (cField w) = j := by simpa [formatAC] using h
  exact (he _ _).trans (congrArg _ ((packFields_eq_iff ..).mpr ⟨hop, rfl, hb, rfl⟩))

theorem encode_of_formatC {f : Byte → Instr} (h : formatC w f = some j) (hop : opField w = op)
    (he : ∀ c, encode (f c) = .word (packFields op 0#8 0#8 c)) : encode j = .word w := by
  obtain ⟨⟨ha, hb⟩, rfl⟩ : (aField w = 0#8 ∧ bField w = 0#8) ∧ f (cField w) = j := by simpa [formatC] using h
  exact (he _).trans (congrArg _ ((packFields_eq_iff ..).mpr ⟨hop, ha, hb, rfl⟩))

theorem encode_of_formatAB {f : Byte → Byte → Instr} (h : formatAB w f = some j) (hop : opField w = op)
    (he : ∀ a b, encode (f a b) = .word (packFields op a b 0#8)) : encode j = .word w := by
  obtain ⟨hc, rfl⟩ : cField w = 0#8 ∧ f (aField w) (bField w) = j := by simpa [formatAB] using h
  exact (he _ _).trans (congrArg _ ((packFields_eq_iff ..).mpr ⟨hop, rfl, rfl, hc⟩))

theorem encode_of_formatABC {f : Byte → Byte → Byte → Instr} (h : formatABC w f = some j) (hop : opField w = op)
    (he : ∀ a b c, encode (f a b c) = .word (packFields op a b c)) : encode j = .word w := by
  obtain rfl : f (aField w) (bField w) (cField w) = j := Option.some.inj h
  exact (he _ _ _).trans (congrArg _ ((packFields_eq_iff ..).mpr ⟨hop, rfl, rfl, rfl⟩))

theorem encode_of_formatI16 {f : BitVec 16 → Instr} (h : formatI16 w f = some j) (hop : opField w = op)
    (he : ∀ v, encode (f v) = .word (packImm16 op v)) : encode j = .word w := by
  obtain ⟨ha, rfl⟩ : aField w = 0#8 ∧ f (imm16Field w) = j := by simpa [formatI16] using h
  exact (he _).trans (congrArg _ ((packImm16_eq_iff ..).mpr ⟨hop, ha, rfl⟩))

theorem encode_of_formatI24 {f : BitVec 24 → Instr} (h : formatI24 w f = some j) (hop : opField w = op)
    (he : ∀ v, encode (f v) = .word (packImm24 op v)) : encode j = .word w := by
  obtain rfl : f (imm24Field w) = j := Option.some.inj h
  exact (he _).trans (congrArg _ ((packImm24_eq_iff ..).mpr ⟨hop, rfl⟩))

end

/-! ### The decoder and the encoder -/

/-- What a word decodes to is encoded by that word, row by row (R64). -/
theorem encode_of_decodeFormat {i : Instr} {w : Word} (h : decodeFormat w = some i) : encode i = .word w := by
  unfold decodeFormat at h
  split at h
  · next hop => exact encode_of_formatAC h hop fun _ _ => rfl
  · next hop => exact encode_of_formatA h hop fun _ => rfl
  · next hop => exact encode_of_formatZ h hop rfl
  · next hop => exact encode_of_formatZ h hop rfl
  · next hop => exact encode_of_formatC h hop fun _ => rfl
  · next hop => exact encode_of_formatZ h hop rfl
  · next hop => exact encode_of_formatZ h hop rfl
  · next hop => exact encode_of_formatABC h hop fun _ _ _ => rfl
  · next hop => exact encode_of_formatAB h hop fun _ _ => rfl
  · next hop => exact encode_of_formatZ h hop rfl
  · next hop => exact encode_of_formatC h hop fun _ => rfl
  · next hop => exact encode_of_formatI16 h hop fun _ => rfl
  · next hop => exact encode_of_formatZ h hop rfl
  · next hop => exact encode_of_formatZ h hop rfl
  · next hop => exact encode_of_formatZ h hop rfl
  · next hop => exact encode_of_formatC h hop fun _ => rfl
  · next hop => exact encode_of_formatI24 h hop fun _ => rfl
  · next hop => exact encode_of_formatC h hop fun _ => rfl
  · next hop => exact encode_of_formatZ h hop rfl
  · next hop => exact encode_of_formatZ h hop rfl
  · next hop => exact encode_of_formatZ h hop rfl
  · next hop => exact encode_of_formatZ h hop rfl
  · next hop => exact encode_of_formatZ h hop rfl
  · next hop => exact encode_of_formatC h hop fun _ => rfl
  · next hop => exact encode_of_formatZ h hop rfl
  · cases h

/-- The word of an operation decodes to it, whatever its operands: the fields of a packed word are what was packed (R62). -/
theorem decodeFormat_of_encode {i : Instr} {w : Word} (h : encode i = .word w) : decodeFormat w = some i := by
  cases i with
  | tick => cases h
  | reset => cases h
  | _ =>
    cases h
    simp [decodeFormat, formatZ, formatA, formatAC, formatC, formatAB, formatABC, formatI16, formatI24]

theorem decodeFormat_eq_some_iff (w : Word) (i : Instr) : decodeFormat w = some i ↔ encode i = .word w :=
  ⟨encode_of_decodeFormat, decodeFormat_of_encode⟩

/-- A word decodes to the well-formed operation that it encodes (R64, R65). -/
theorem decodeWord_eq_some_iff (w : Word) (i : Instr) : decodeWord w = some i ↔ encode i = .word w ∧ i.wf = true := by
  rw [decodeWord, Option.filter_eq_some_iff, decodeFormat_eq_some_iff]

theorem encode_eq_tickStrobe_iff (i : Instr) : encode i = .tickStrobe ↔ i = .tick := by
  cases i <;> simp [encode]

theorem encode_eq_rstStrobe_iff (i : Instr) : encode i = .rstStrobe ↔ i = .reset := by
  cases i <;> simp [encode]

/-- What arrives at a port decodes to the well-formed operation that it encodes. -/
theorem decode_eq_some_iff (e : Encoded) (i : Instr) : decode e = some i ↔ i.wf = true ∧ encode i = e := by
  cases e with
  | tickStrobe =>
    rw [encode_eq_tickStrobe_iff]
    constructor
    · rintro ⟨⟩
      exact ⟨rfl, rfl⟩
    · rintro ⟨-, rfl⟩
      rfl
  | rstStrobe =>
    rw [encode_eq_rstStrobe_iff]
    constructor
    · rintro ⟨⟩
      exact ⟨rfl, rfl⟩
    · rintro ⟨-, rfl⟩
      rfl
  | word w =>
    rw [and_comm]
    exact decodeWord_eq_some_iff w i

/-- Settles O2: `decode_eq_some_iff` at the encoding of the operation. -/
theorem decodeOfEncode : Obligations.DecodeOfEncode :=
  fun i hwf => (decode_eq_some_iff _ i).mpr ⟨hwf, rfl⟩

/-- Settles O3: `decode_eq_some_iff`, read from the encoding. -/
theorem encodeOfDecode : Obligations.EncodeOfDecode :=
  fun e i h => (decode_eq_some_iff e i).mp h

/-- Settles O1, by running the decoder on the ten encodings. -/
theorem wordsOfEveryFormatDecode : Obligations.WordsOfEveryFormatDecode := by
  unfold Obligations.WordsOfEveryFormatDecode
  decide

end Sys2Proof
end

section
/-! The match and mask columns of R64: a mask covers whole fields, and the high bits of an operand that has a range. -/

namespace Sys2Proof

@[simp] theorem opField_ofNat (n : Nat) : opField (BitVec.ofNat 32 n) = BitVec.ofNat 8 (n / 2 ^ 24) := by
  simp only [opField, ← BitVec.toNat_inj, BitVec.extractLsb'_toNat, Nat.shiftRight_eq_div_pow, BitVec.toNat_ofNat]
  omega

@[simp] theorem aField_ofNat (n : Nat) : aField (BitVec.ofNat 32 n) = BitVec.ofNat 8 (n / 2 ^ 16) := by
  simp only [aField, ← BitVec.toNat_inj, BitVec.extractLsb'_toNat, Nat.shiftRight_eq_div_pow, BitVec.toNat_ofNat]
  omega

@[simp] theorem bField_ofNat (n : Nat) : bField (BitVec.ofNat 32 n) = BitVec.ofNat 8 (n / 2 ^ 8) := by
  simp only [bField, ← BitVec.toNat_inj, BitVec.extractLsb'_toNat, Nat.shiftRight_eq_div_pow, BitVec.toNat_ofNat]
  omega

@[simp] theorem cField_ofNat (n : Nat) : cField (BitVec.ofNat 32 n) = BitVec.ofNat 8 n := by
  simp only [cField, ← BitVec.toNat_inj, BitVec.extractLsb'_toNat, Nat.shiftRight_eq_div_pow, BitVec.toNat_ofNat]
  omega

/-- A masked word is compared field by field. -/
theorem eq_and_iff_fields (w m v : Word) :
    v = w &&& m ↔ opField w &&& opField m = opField v ∧ aField w &&& aField m = aField v ∧
      bField w &&& bField m = bField v ∧ cField w &&& cField m = cField v := by
  rw [eq_comm, word_eq_iff]
  simp only [opField, aField, bField, cField, BitVec.extractLsb'_and]

/-- The mask of a whole field. -/
theorem and_fullMask (x : Byte) : x &&& 0xFF#8 = x := BitVec.and_allOnes

/-- A mask of all bits from `k` up tests a field for being below `2 ^ k`. -/
theorem and_highMask_eq_zero_iff (x : Byte) {k : Nat} (hk : k < 8) :
    x &&& (BitVec.allOnes 8 <<< k) = 0#8 ↔ x.toNat < 2 ^ k := by
  rw [BitVec.toNat_lt_iff_getLsbD_eq_false k hk]
  constructor
  · intro h j
    by_cases hj : k + j < 8
    · have hbit := congrArg (BitVec.getLsbD · (k + j)) h
      simpa [-BitVec.getLsbD_eq_getElem, -BitVec.reduceAllOnes, hj, show j < 8 by omega] using hbit
    · exact BitVec.getLsbD_of_ge x _ (by omega)
  · intro h
    refine BitVec.eq_of_getLsbD_eq fun j _ => ?_
    by_cases hj : j < k
    · simp [-BitVec.getLsbD_eq_getElem, hj]
    · have hbit : x.getLsbD j = false := Nat.add_sub_cancel' (Nat.le_of_not_lt hj) ▸ h (j - k)
      simp [-BitVec.getLsbD_eq_getElem, hbit]

theorem and_mask_FE (x : Byte) : x &&& 0xFE#8 = 0#8 ↔ x.toNat ≤ 1 :=
  (and_highMask_eq_zero_iff x (k := 1) (by decide)).trans Nat.lt_succ_iff

theorem and_mask_FC (x : Byte) : x &&& 0xFC#8 = 0#8 ↔ x.toNat ≤ 3 :=
  (and_highMask_eq_zero_iff x (k := 2) (by decide)).trans Nat.lt_succ_iff

theorem and_mask_F8 (x : Byte) : x &&& 0xF8#8 = 0#8 ↔ x.toNat < 8 := and_highMask_eq_zero_iff x (k := 3) (by decide)

theorem and_mask_E0 (x : Byte) : x &&& 0xE0#8 = 0#8 ↔ x.toNat < 32 := and_highMask_eq_zero_iff x (k := 5) (by decide)

/-- What a word's fields spell for a row is encoded by the word, and well-formed, exactly when the word matches the row (R64). -/
theorem encode_ofFields_iff (w : Word) (i : Instr) :
    encode (i.ofFields w) = .word w ∧ (i.ofFields w).wf = true ↔
      (∃ v m, i.matchMask = some (v, m) ∧ w &&& m = v) ∧ i.ofFields w ≠ .rdsig 7#8 := by
  cases i with
  | setsig _ _ =>
    simp [encode, Instr.ofFields, Instr.wf, Instr.matchMask, packFields_eq_iff, eq_and_iff_fields, and_fullMask, and_mask_FC,
      and_mask_FE]
    tauto
  | rdsig _ =>
    have hrange : (aField w).toNat ≤ 6 ↔ (aField w).toNat < 8 ∧ aField w ≠ 7#8 := by bv_omega
    simp [encode, Instr.ofFields, Instr.wf, Instr.matchMask, packFields_eq_iff, eq_and_iff_fields, and_fullMask, and_mask_F8,
      hrange]
    tauto
  | bufrd _ _ =>
    simp [encode, Instr.ofFields, Instr.wf, Instr.matchMask, packFields_eq_iff, eq_and_iff_fields, and_fullMask, and_mask_FE]
    tauto
  | _ =>
    simp [encode, Instr.ofFields, Instr.wf, Instr.matchMask, packFields_eq_iff, packImm16_eq_iff, packImm24_eq_iff,
      eq_and_iff_fields, and_fullMask, and_mask_FE, and_mask_F8, and_mask_E0, and_assoc]

/-- The word of an operation spells its operands. -/
theorem ofFields_of_encode {i : Instr} {w : Word} (h : encode i = .word w) : i.ofFields w = i := by
  cases i with
  | tick => rfl
  | reset => rfl
  | _ =>
    cases h
    simp [Instr.ofFields]

/-- Settles O4. Both sides say that the word spells the operands of `i`; what is left is a comparison of fields. -/
theorem decodeFollowsOpcodeTable : Obligations.DecodeFollowsOpcodeTable := by
  intro w i
  rw [decodeWord_eq_some_iff]
  by_cases hi : i.ofFields w = i
  · have hrow := encode_ofFields_iff w i
    rw [hi] at hrow
    simpa [hi] using hrow
  · constructor
    · rintro ⟨he, -⟩
      exact absurd (ofFields_of_encode he) hi
    · rintro ⟨-, h, -⟩
      exact absurd h hi

end Sys2Proof
end

section
/-! How the words of an opcode decode (R62, R65, R67), and the words that decode to nothing. -/

namespace Sys2Proof.Machine

/-- A word whose opcode is no row's decodes to nothing. -/
theorem decodeWord_of_unlisted_opcode {w : Word}
    (h : (opField w).toNat ≤ 0x0F ∨ (0x14 ≤ (opField w).toNat ∧ (opField w).toNat ≤ 0x1F) ∨
      (0x25 ≤ (opField w).toNat ∧ (opField w).toNat ≤ 0x2F) ∨
      (0x34 ≤ (opField w).toNat ∧ (opField w).toNat ≤ 0x3F) ∨ 0x4C ≤ (opField w).toNat) : decodeWord w = none := by
  have hformat : decodeFormat w = none := by
    unfold decodeFormat
    split
    case h_26 => rfl
    all_goals next hop => simp [hop] at h
  rw [decodeWord, hformat]
  rfl

/-- What a format gives when its check `p` passes, with the range check of R63 after it. -/
theorem filter_wf_ite (i : Instr) (p : Prop) [Decidable p] :
    (if p then some i else none).filter Instr.wf = if i.wf = true ∧ p then some i else none := by
  by_cases hp : p <;> cases hwf : i.wf <;> simp [hp, hwf]

/-- A format C row spells its operation as `SpelledC` says. -/
theorem spelledC_of_decodeFormat {op : Byte} {f : Byte → Instr} {bound : Nat}
    (hwf : ∀ c, (f c).wf = true ↔ c.toNat < bound) (h : ∀ w : Word, opField w = op → decodeFormat w = formatC w f) :
    SpelledC op f bound := by
  intro w hw
  rw [decodeWord, h w hw, formatC, filter_wf_ite]
  simp only [hwf, extract_ab_eq_zero_iff, and_comm, cField]

section
variable {w : Word}

theorem decodeWord_setsig (hop : opField w = 0x10#8) :
    decodeWord w =
      if (aField w).toNat ≤ 3 ∧ bField w = 0#8 ∧ (cField w).toNat ≤ 1 then some (.setsig (aField w) (cField w)) else none := by
  simp [decodeWord, decodeFormat, hop, formatAC, filter_wf_ite, Instr.wf, and_left_comm, and_comm]

theorem decodeWord_rdsig (hop : opField w = 0x11#8) :
    decodeWord w = if (aField w).toNat ≤ 6 ∧ w.extractLsb' 0 16 = 0#16 then some (.rdsig (aField w)) else none := by
  simp [decodeWord, decodeFormat, hop, formatA, filter_wf_ite, Instr.wf, extract_bc_eq_zero_iff]

theorem decodeWord_bufwr (hop : opField w = 0x23#8) :
    decodeWord w = if (aField w).toNat ≤ 1 then some (.bufwr (aField w) (bField w) (cField w)) else none := by
  simp [decodeWord, decodeFormat, hop, formatABC, Instr.wf, Option.filter_some]

theorem decodeWord_bufrd (hop : opField w = 0x24#8) :
    decodeWord w = if (aField w).toNat ≤ 1 ∧ cField w = 0#8 then some (.bufrd (aField w) (bField w)) else none := by
  simp [decodeWord, decodeFormat, hop, formatAB, filter_wf_ite, Instr.wf]

theorem decodeWord_wrseed (hop : opField w = 0x32#8) :
    decodeWord w = if aField w = 0#8 then some (.wrseed (imm16Field w)) else none := by
  simp [decodeWord, decodeFormat, hop, formatI16, filter_wf_ite, Instr.wf]

theorem spelledC_wrcfg : SpelledC 0x42#8 .wrcfg 32 :=
  spelledC_of_decodeFormat (fun _ => decide_eq_true_iff) fun w hw => by simp [decodeFormat, hw]

theorem spelledC_clrerr : SpelledC 0x4A#8 .clrerr 8 :=
  spelledC_of_decodeFormat (fun _ => decide_eq_true_iff) fun w hw => by simp [decodeFormat, hw]

/-- A word with an opcode of format Z and `CMD[23:0]` not 0 decodes to nothing (R67). -/
theorem decodeWord_of_formatZ_opcode
    (hop : opField w ∈ [0x12#8, 0x13#8, 0x21#8, 0x22#8, 0x30#8, 0x33#8, 0x40#8, 0x41#8, 0x45#8, 0x46#8, 0x47#8, 0x48#8, 0x49#8,
      0x4B#8])
    (hw : w.extractLsb' 0 24 ≠ 0#24) : decodeWord w = none := by
  have hformat : decodeFormat w = none := by
    simp only [List.mem_cons, List.not_mem_nil, or_false] at hop
    rcases hop with h | h | h | h | h | h | h | h | h | h | h | h | h | h <;>
      simp [decodeFormat, h, formatZ, imm24Field, hw]
  rw [decodeWord, hformat]
  rfl

/-- A word with an opcode of format C and `CMD[23:8]` not 0 decodes to nothing (R67). -/
theorem decodeWord_of_formatC_opcode (hop : opField w ∈ [0x20#8, 0x31#8, 0x42#8, 0x44#8, 0x4A#8])
    (hw : w.extractLsb' 8 16 ≠ 0#16) : decodeWord w = none := by
  have hformat : decodeFormat w = none := by
    rw [Ne, extract_ab_eq_zero_iff] at hw
    simp only [List.mem_cons, List.not_mem_nil, or_false] at hop
    rcases hop with h | h | h | h | h <;>
      simp only [decodeFormat, h, formatC, if_neg hw]
  rw [decodeWord, hformat]
  rfl

/-- A word that decodes to nothing is taken off the ports and refused (R65, R66). -/
theorem step_undecoded {s : State} {rest : List EnvStep} (h : s.inputs = .present (Presented.command w) :: rest)
    (hd : decodeWord w = none) : step s = .next (s.withInputs rest).refuse := by
  simp [step, fetch, h, arbitrate, Presented.command, dispatched, decode, hd]

end

/-- The bits of `c` from `k` up are 0 when `c` is below `2 ^ k`. -/
theorem extractLsb'_eq_zero_of_lt {w : Word} {k n : Nat} (h : (w.extractLsb' 0 8).toNat < 2 ^ k) (hk : k + n ≤ 8) :
    w.extractLsb' k n = 0#n := by
  have hbits : w.extractLsb' k n = (w.extractLsb' 0 8).extractLsb' k n := by
    rw [BitVec.extractLsb'_extractLsb'_of_le hk]
  apply BitVec.eq_of_toNat_eq
  rw [hbits, BitVec.extractLsb'_toNat, Nat.shiftRight_eq_div_pow, Nat.div_eq_of_lt h]
  simp

/-- Settles O5: by the opcode, then by the fields that the opcode's format checks and the ranges of its operands. -/
theorem unlistedWordsAreRefused : Obligations.UnlistedWordsAreRefused := by
  refine ⟨fun w => decodeWord_of_unlisted_opcode, by decide, by decide, ?setsig, ?rdsig, ?bufwr, ?bufrd, ?wrcfg, ?clrerr,
    fun w => decodeWord_of_formatZ_opcode, fun w => decodeWord_of_formatC_opcode, ?wrseed, fun s w rest => step_undecoded⟩
  case setsig =>
    intro w hop h
    rw [decodeWord_setsig hop, if_neg]
    rintro ⟨ha, hb, hc⟩
    rcases h with h | h | h
    · omega
    · exact h hb
    · omega
  case rdsig =>
    intro w hop h
    rw [decodeWord_rdsig hop, if_neg]
    rintro ⟨ha, hbc⟩
    obtain ⟨hb, hc⟩ := (extract_bc_eq_zero_iff w).mp hbc
    rcases h with h | h | h
    · omega
    · exact h hb
    · exact h hc
  case bufwr =>
    intro w hop h
    rw [decodeWord_bufwr hop, if_neg (by omega)]
  case bufrd =>
    intro w hop h
    rw [decodeWord_bufrd hop, if_neg]
    rintro ⟨ha, hc⟩
    rcases h with h | h
    · omega
    · exact h hc
  case wrcfg =>
    intro w hop h
    rw [spelledC_wrcfg w hop, if_neg]
    rintro ⟨-, hc⟩
    exact h (extractLsb'_eq_zero_of_lt (k := 5) hc (by decide))
  case clrerr =>
    intro w hop h
    rw [spelledC_clrerr w hop, if_neg]
    rintro ⟨-, hc⟩
    exact h (extractLsb'_eq_zero_of_lt (k := 3) hc (by decide))
  case wrseed =>
    intro w hop h
    rw [decodeWord_wrseed hop, if_neg h]

end Sys2Proof.Machine
end

section
/-!
What a command answers (R61, R66): a well-formed command that is legal is accepted, any other is refused. An event answers nothing
(R69).
-/

namespace Sys2Proof.Machine

/-- `u` has given no response since `s`, and the environment's part is as it was. -/
def KeepsPorts (s u : State) : Prop := u.responses = s.responses ∧ u.inputs = s.inputs ∧ u.pins = s.pins

/-- The command is accepted: its effect leaves the ports alone, and then it answers. -/
def Accepts (s : State) (r : Result) : Prop := ∃ u v, KeepsPorts s u ∧ r = .next (u.rsp v)

/-- The command is accepted if `ok`, refused if not. -/
def Answers (s : State) (ok : Bool) (r : Result) : Prop := if ok then Accepts s r else r = .next s.refuse

section
variable {s u : State} {ok : Bool} {r : Result}

theorem Answers.accepted {v : Word} (h : KeepsPorts s u := by exact ⟨rfl, rfl, rfl⟩) : Answers s true (.next (u.rsp v)) :=
  ⟨u, v, h, rfl⟩

theorem Answers.refused : Answers s false (.next s.refuse) := rfl

/-- A command whose guard fails exactly when it is to be refused. -/
theorem Answers.guarded {p : Prop} [Decidable p] {v : Word} (hp : p ↔ ok = false)
    (h : KeepsPorts s u := by exact ⟨rfl, rfl, rfl⟩) : Answers s ok (if p then .next s.refuse else .next (u.rsp v)) := by
  cases ok with
  | false => rw [if_pos (hp.mpr rfl)]; exact .refused
  | true => rw [if_neg (by simp [hp])]; exact .accepted h

/-! ### The ports under the effects of `exec` -/

theorem State.stepCursor_keepsPorts (s : State) : KeepsPorts s s.stepCursor := by simp [KeepsPorts]

theorem State.push_keepsPorts (s : State) (v : Byte) : KeepsPorts s (s.push v) := by simp [KeepsPorts, State.push_spec]

theorem State.startSession_keepsPorts (s : State) : KeepsPorts s s.startSession := by
  simp [KeepsPorts, State.startSession_spec]

theorem State.endSession_keepsPorts (s : State) : KeepsPorts s s.endSession := by
  simp [KeepsPorts, State.endSession_spec]

theorem State.transfer_keepsPorts (s : State) (low : Bool) : KeepsPorts s (s.transfer low) := by
  rw [State.transfer_spec, State.bitCapture_spec, State.bitEmit_spec]
  dsimp only
  split_ifs <;> simp [KeepsPorts]

theorem State.tick_keepsPorts (s : State) : KeepsPorts s s.tick := by
  rcases s.tick_spec with ⟨-, h⟩ | ⟨-, -, h⟩ | ⟨-, -, -, h⟩ | ⟨-, -, -, h⟩ | ⟨-, h⟩ <;> rw [h]
  · exact ⟨rfl, rfl, rfl⟩
  · simp [KeepsPorts, State.gapFirstOne_spec]
  · simp [KeepsPorts, State.gapCount_spec]
  · exact (s.strobeClock.setFsm .xfer).transfer_keepsPorts _
  · exact s.strobeClock.transfer_keepsPorts _

/-! ### The commands -/

theorem State.armed_iff_illegal (s : State) : s.armed = true ↔ decide (s.engine.fsm = .disarmed) = false := by
  simp [State.armed]

theorem State.crcOwned_iff_illegal (s : State) :
    s.crcOwned = true ↔ (decide (s.engine.fsm = .disarmed) || !s.engine.cfg.getLsbD 4) = false := by
  simp [State.crcOwned_iff]

/-! The operand checks of R82, R83, R98 and R99 are those of `Instr.wf` (R63). -/

theorem isSome_eq_decide_le {α : Type} {o : Option α} {n k : Nat} (h : o = none ↔ k < n) : o.isSome = decide (n ≤ k) := by
  rw [Bool.eq_iff_iff, Option.isSome_iff_ne_none, Ne, h, decide_eq_true_iff, Nat.not_lt]

theorem OutSig.isSome_ofId (a : Byte) : (OutSig.ofId a).isSome = decide (a.toNat ≤ 3) :=
  isSome_eq_decide_le (OutSig.ofId_eq_none a)

theorem Signal.isSome_ofId (a : Byte) : (Signal.ofId a).isSome = decide (a.toNat ≤ 6) :=
  isSome_eq_decide_le (Signal.ofId_eq_none a)

theorem isSome_levelOf (c : Byte) : (levelOf c).isSome = decide (c.toNat ≤ 1) :=
  isSome_eq_decide_le (levelOf_eq_none c)

theorem BufId.isSome_ofId (a : Byte) : (BufId.ofId a).isSome = decide (a.toNat ≤ 1) :=
  isSome_eq_decide_le (BufId.ofId_eq_none a)

/-- The operand check of R129. -/
theorem wrcfg_reserved_iff (c : Byte) : c.extractLsb' 5 3 ≠ 0#3 ↔ ¬ c.toNat < 32 := by
  simp only [Ne, ← BitVec.toNat_inj, BitVec.extractLsb'_toNat, Nat.shiftRight_eq_div_pow, BitVec.toNat_ofNat]
  omega

/-- The operand check of R137. -/
theorem clrerr_reserved_iff (m : Byte) : m.extractLsb' 3 5 ≠ 0#5 ↔ ¬ m.toNat < 8 := by
  simp only [Ne, ← BitVec.toNat_inj, BitVec.extractLsb'_toNat, Nat.shiftRight_eq_div_pow, BitVec.toNat_ofNat]
  omega

/-- Every command is accepted when it is well-formed and legal, and refused when not (R65, R66, R68). -/
theorem exec_answers (i : Instr) (s : State) (hcmd : isEvent i = false) :
    Answers s (i.wf && legalNow s i) (exec i s) := by
  cases i with
  | tick => cases hcmd
  | reset => cases hcmd
  | setsig a c =>
    simp only [exec, execSetsig, Instr.wf, ← OutSig.isSome_ofId, ← isSome_levelOf]
    cases OutSig.ofId a with
    | none => exact .refused
    | some o =>
      cases levelOf c with
      | none => exact .refused
      | some v => exact .accepted
  | rdsig a =>
    simp only [exec, execRdsig, Instr.wf, ← Signal.isSome_ofId]
    cases Signal.ofId a with
    | none => exact .refused
    | some g => exact .accepted
  | bufwr a b c =>
    simp only [exec, execBufwr, Instr.wf, ← BufId.isSome_ofId]
    cases BufId.ofId a with
    | none => exact .refused
    | some d => exact .accepted
  | bufrd a b =>
    simp only [exec, execBufrd, Instr.wf, ← BufId.isSome_ofId]
    cases BufId.ofId a with
    | none => exact .refused
    | some d => exact .accepted
  | push c => exact .guarded s.armed_iff_illegal (s.push_keepsPorts c)
  | pull =>
    simp only [exec, execPull, State.pull_spec]
    exact .guarded s.armed_iff_illegal s.stepCursor_keepsPorts
  | crcrst => exact .guarded s.crcOwned_iff_illegal
  | crcupd c => exact .guarded s.crcOwned_iff_illegal
  | wrseed v => exact .guarded s.armed_iff_illegal
  | arm => exact .guarded s.armed_iff_illegal s.startSession_keepsPorts
  | wrgap g => exact .guarded s.armed_iff_illegal
  | wrcfg c =>
    have hguard : c.extractLsb' 5 3 ≠ 0#3 ∨ s.armed = true ↔
        ((Instr.wrcfg c).wf && legalNow s (.wrcfg c)) = false := by
      rw [wrcfg_reserved_iff, s.armed_iff_illegal, Bool.and_eq_false_iff]
      simp [Instr.wf, legalNow]
    exact .guarded hguard
  | clrerr m =>
    have hguard : m.extractLsb' 3 5 ≠ 0#5 ↔ ((Instr.clrerr m).wf && legalNow s (.clrerr m)) = false := by
      rw [clrerr_reserved_iff]
      simp [Instr.wf, legalNow]
    exact .guarded hguard
  | disarm =>
    refine .accepted ?_
    split
    · exact s.endSession_keepsPorts
    · exact ⟨rfl, rfl, rfl⟩
  | poll => exact .accepted
  | consume => exact .accepted
  | wrside d => exact .accepted
  | rdsigs => exact .accepted
  | rdcrc => exact .accepted
  | rdstatus => exact .accepted
  | rdpos => exact .accepted
  | rdbits => exact .accepted
  | rdgap => exact .accepted
  | rdcfg => exact .accepted
  | rdgaplen => exact .accepted

/-- An event completes and answers nothing (R69). -/
theorem exec_event {i : Instr} (s : State) (hev : isEvent i = true) : ∃ t, exec i s = .next t ∧ KeepsPorts s t := by
  obtain rfl | rfl : i = .tick ∨ i = .reset := by simpa [isEvent] using hev
  · exact ⟨_, rfl, s.tick_keepsPorts⟩
  · exact ⟨_, rfl, rfl, rfl, rfl⟩

/-- A word on the command port never stands for an event (R69). -/
theorem isEvent_of_decodeWord {w : Word} {i : Instr} (h : decodeWord w = some i) : isEvent i = false := by
  obtain ⟨he, -⟩ := (decodeWord_eq_some_iff w i).mp h
  cases i with
  | tick => cases he
  | reset => cases he
  | _ => rfl

/-- A command that was decoded is well-formed: it is accepted exactly when it is legal. -/
theorem exec_of_decodeWord {w : Word} {i : Instr} (h : decodeWord w = some i) (s : State) :
    Answers s (legalNow s i) (exec i s) := by
  obtain ⟨-, hwf⟩ := (decodeWord_eq_some_iff w i).mp h
  simpa [hwf] using exec_answers i s (isEvent_of_decodeWord h)

/-! ### What an answer says -/

theorem Answers.next (h : Answers s ok r) : ∃ t, r = .next t := by
  cases ok with
  | false => exact ⟨_, h⟩
  | true =>
    obtain ⟨u, v, -, hr⟩ := h
    exact ⟨_, hr⟩

/-- One response more, and nothing else at the ports. -/
theorem Answers.response {t : State} (h : Answers s ok r) (hr : r = .next t) :
    ∃ a : Response, t.responses = a :: s.responses ∧ (a.err = true → a.data = 0#32) ∧ t.inputs = s.inputs ∧ t.pins = s.pins := by
  cases ok with
  | false =>
    cases hr.symm.trans h
    exact ⟨_, rfl, fun _ => rfl, rfl, rfl⟩
  | true =>
    obtain ⟨u, v, ⟨hresp, hin, hpins⟩, hu⟩ := h
    cases hr.symm.trans hu
    exact ⟨_, congrArg _ hresp, fun hne => (Bool.false_ne_true hne).elim, hin, hpins⟩

/-- The response tells which it was: `err` is 0 when the command is accepted. -/
theorem Answers.accepted_response {t : State} (h : Answers s true r) (hr : r = .next t) :
    ∃ v : Word, t.responses = { err := false, data := v } :: s.responses := by
  obtain ⟨u, v, ⟨hresp, -, -⟩, hu⟩ := h
  cases hr.symm.trans hu
  exact ⟨v, congrArg _ hresp⟩

theorem Answers.eq_refuse_iff (h : Answers s ok r) : r = .next s.refuse ↔ ok = false := by
  cases ok with
  | false => exact iff_of_true h rfl
  | true =>
    refine iff_of_false (fun hr => ?_) Bool.noConfusion
    obtain ⟨v, hv⟩ := h.accepted_response hr
    simp [State.refuse] at hv

end

/-! ### The statements -/

/-- Settles O8: a command answers, an event changes the state, and a step is one of the two or the environment's. -/
theorem everyOperationCompletes : Obligations.EveryOperationCompletes := by
  have hexec : ∀ (i : Instr) (s : State), ∃ t, exec i s = .next t := by
    intro i s
    cases hev : isEvent i with
    | false => exact (exec_answers i s hev).next
    | true =>
      obtain ⟨t, ht, -⟩ := exec_event s hev
      exact ⟨t, ht⟩
  refine ⟨hexec, fun s => ?_⟩
  rcases step_spec s with ⟨h, -⟩ | ⟨t, -, h⟩ | ⟨r, t, i, -, -, h⟩ | ⟨r, t, -, -, h⟩ <;> rw [h]
  · exact ⟨s, rfl⟩
  · exact ⟨t, rfl⟩
  · exact hexec i t
  · exact ⟨_, rfl⟩

/-- Settles O9: `exec_answers` for a command, `exec_event` for an event, and a refused word for a step. -/
theorem everyCommandAnswersOnce : Obligations.EveryCommandAnswersOnce := by
  refine ⟨fun i s t hcmd h => (exec_answers i s hcmd).response h, ?event, ?step⟩
  case event =>
    intro i s t hev h
    obtain ⟨u, hu, hports⟩ := exec_event s hev
    cases h.symm.trans hu
    exact hports
  case step =>
    intro s t w rest hin h
    cases hd : decodeWord w with
    | none =>
      cases h.symm.trans (step_undecoded hin hd)
      exact ⟨_, rfl, fun _ => rfl⟩
    | some i =>
      rw [step_command hin hd] at h
      obtain ⟨a, hresp, hdata, -, -⟩ := (exec_of_decodeWord hd _).response h
      exact ⟨a, hresp, hdata⟩

/-- Settles O10: a word that decodes is well-formed, so only legality is left, and that does not depend on what is still to be
presented. -/
theorem refusalHasOneEffect : Obligations.RefusalHasOneEffect := by
  intro s w rest hin
  have hlegal : ∀ i, legalNow (s.withInputs rest) i = legalNow s i := fun i => by cases i <;> rfl
  refine ⟨step_undecoded hin, fun i hd hl => ?refused, fun i t hd hl h => ?accepted⟩
  case refused =>
    rw [step_command hin hd]
    exact (exec_of_decodeWord hd _).eq_refuse_iff.mpr ((hlegal i).trans hl)
  case accepted =>
    rw [step_command hin hd] at h
    have hans := exec_of_decodeWord hd (s.withInputs rest)
    rw [hlegal, hl] at hans
    exact hans.accepted_response h

/-- The commands that R68 lists. -/
theorem legalNow_eq_false_iff (s : State) (i : Instr) :
    legalNow s i = false ↔
      s.engine.fsm ≠ .disarmed ∧
        ((∃ c, i = .push c) ∨ i = .pull ∨ i = .arm ∨ (∃ c, i = .wrcfg c) ∨ (∃ g, i = .wrgap g) ∨ (∃ v, i = .wrseed v) ∨
          (s.engine.cfg.getLsbD 4 = true ∧ (i = .crcrst ∨ ∃ c, i = .crcupd c))) := by
  cases i <;> simp [legalNow]

/-- Settles O11: a well-formed command is refused exactly when it is not legal. -/
theorem commandsRefusedWhileArmed : Obligations.CommandsRefusedWhileArmed := by
  intro s i hwf hcmd
  have hans := exec_answers i s hcmd
  rw [hwf, Bool.true_and] at hans
  exact hans.eq_refuse_iff.trans (legalNow_eq_false_iff s i)

end Sys2Proof.Machine
end

section
/-!
The handshake signals, their pins and `side` replaced under a tick (R80, R14): the replacement commutes with every procedure of the
engine, as long as the data line keeps its level.
-/

namespace Sys2Proof.Machine

/-- `s` with other signal registers, other pin levels and another `side`. -/
def State.withHandshake (s : State) (g : Signals) (p : Pins) (d : Byte) : State :=
  { s with signals := g, pins := p, engine := { s.engine with side := d } }

theorem State.withHandshake_self (s : State) : s.withHandshake s.signals s.pins s.engine.side = s := rfl

section
variable (s : State) (g : Signals) {p : Pins} (d : Byte)

/-- A choice that reads nothing of what is replaced. -/
theorem ite_withHandshake {c : Prop} [Decidable c] {t t' u u' : State} (ht : u = t.withHandshake g p d)
    (ht' : u' = t'.withHandshake g p d) : (if c then u else u') = (if c then t else t').withHandshake g p d := by
  split
  · exact ht
  · exact ht'

theorem State.stepCursor_withHandshake : (s.withHandshake g p d).stepCursor = s.stepCursor.withHandshake g p d :=
  ite_withHandshake g d rfl rfl

theorem State.bitEmit_withHandshake : (s.withHandshake g p d).bitEmit = s.bitEmit.withHandshake g p d := by
  rw [State.bitEmit_spec, State.bitEmit_spec, State.stepCursor_withHandshake]
  exact ite_withHandshake g d rfl rfl

theorem State.gapCount_withHandshake : (s.withHandshake g p d).gapCount = s.gapCount.withHandshake g p d := by
  rw [State.gapCount_spec, State.gapCount_spec]
  rfl

variable (hp : p.dataIn = s.pins.dataIn)
include hp

theorem State.bitCapture_withHandshake : (s.withHandshake g p d).bitCapture = s.bitCapture.withHandshake g p d := by
  have hpin : (s.withHandshake g p d).pins.dataIn = s.pins.dataIn := hp
  rw [State.bitCapture_spec, State.bitCapture_spec, State.stepCursor_withHandshake, hpin]
  exact ite_withHandshake g d rfl rfl

theorem State.gapFirstOne_withHandshake (low : Bool) :
    (s.withHandshake g p d).gapFirstOne low = (s.gapFirstOne low).withHandshake g p d := by
  have hpin : (s.withHandshake g p d).pins.dataIn = s.pins.dataIn := hp
  rw [State.gapFirstOne_spec, State.gapFirstOne_spec, hpin]
  rfl

theorem State.transfer_withHandshake (low : Bool) :
    (s.withHandshake g p d).transfer low = (s.transfer low).withHandshake g p d := by
  rw [State.transfer_spec, State.transfer_spec]
  exact ite_withHandshake g d
    (ite_withHandshake g d (s.bitCapture_withHandshake g d hp) (s.bitEmit_withHandshake g d)) rfl

theorem State.gapTick_withHandshake (low : Bool) :
    (s.withHandshake g p d).gapTick low = (s.gapTick low).withHandshake g p d :=
  ite_withHandshake g d (s.gapFirstOne_withHandshake g d hp low)
    (ite_withHandshake g d (s.gapCount_withHandshake g d) ((s.setFsm .xfer).transfer_withHandshake g d hp low))

theorem State.tick_withHandshake : (s.withHandshake g p d).tick = s.tick.withHandshake g p d := by
  have hfsm : (s.withHandshake g p d).engine.fsm = s.engine.fsm := rfl
  simp only [State.tick, hfsm]
  cases s.engine.fsm with
  | disarmed => rfl
  | gap => exact congrArg State.togglePhase (s.strobeClock.gapTick_withHandshake g d hp (!s.engine.ph))
  | xfer => exact congrArg State.togglePhase (s.strobeClock.transfer_withHandshake g d hp (!s.engine.ph))

end

/-- A tick writes no signal register: with each replaced by itself, it leaves what was put there. -/
@[simp] theorem State.tick_signals (s : State) : s.tick.signals = s.signals := by
  have h : s.tick = s.tick.withHandshake s.signals s.pins s.engine.side := s.tick_withHandshake s.signals s.engine.side rfl
  rw [h]
  rfl

/-- Settles O56. -/
theorem tickIgnoresHandshakeAndSide : Obligations.TickIgnoresHandshakeAndSide := by
  intro s t g p d h hp
  cases h
  exact congrArg Host.Outcome.next (s.tick_withHandshake g d hp)

end Sys2Proof.Machine
end

section
/-! The Signal Line Abstraction: polarity, the latches, what its commands do, and who writes a signal register (R81 to R86). -/

namespace Sys2Proof.Machine

/-! ### Polarity (R16, R81) -/

theorem Signal.activeLow_out (o : OutSig) : Signal.activeLow (.out o) = decide (o = .mediaSet) := by cases o <;> rfl

theorem Signal.activeLow_inp (i : InSig) : Signal.activeLow (.inp i) = true := by cases i <;> rfl

theorem State.pinOut_eq (s : State) (o : OutSig) : s.pinOut o = (s.signals.get (.out o) ^^ decide (o = .mediaSet)) := by
  rw [State.pinOut, Signal.activeLow_out]

/-! ### The latches (R85) -/

@[simp] theorem Signals.get_latch_out (r : Signals) (p : Pins) (o : OutSig) :
    (r.latch p).get (.out o) = r.get (.out o) := by cases o <;> rfl

@[simp] theorem Signals.get_latch_inp (r : Signals) (p : Pins) (i : InSig) :
    (r.latch p).get (.inp i) = !p.ofInput i := by
  have h : (r.latch p).get (.inp i) = p.logical i := by cases i <;> rfl
  rw [h, Pins.logical, Signal.activeLow_inp, Bool.xor_true]

theorem Signals.latch_latch (r : Signals) (p : Pins) : (r.latch p).latch p = r.latch p := rfl

/-! ### The commands -/

theorem exec_setsig {s : State} {a c : Byte} {o : OutSig} {v : Bool} (ha : a.toNat = o.id) (hc : c.toNat = v.toNat) :
    exec (.setsig a c) s = .next ((s.withSignals (s.signals.setOut o v)).answered 0#32) := by
  simp only [exec, execSetsig, (OutSig.ofId_eq_some a o).mpr ha, (levelOf_eq_some c v).mpr hc, State.rsp_spec]

theorem exec_setsig_refused {s : State} {a c : Byte} (h : 3 < a.toNat ∨ 1 < c.toNat) :
    exec (.setsig a c) s = .next s.turnedAway := by
  rw [← OutSig.ofId_eq_none, ← levelOf_eq_none] at h
  rcases h with h | h <;> simp [exec, execSetsig, h, State.refuse_spec]

theorem exec_poll (s : State) :
    exec .poll s =
      .next ((s.withSignals (s.signals.latch s.pins)).answered (s.withSignals (s.signals.latch s.pins)).sigsWord) := rfl

/-- All three handshake inputs are active-low (R85). -/
theorem exec_poll_latches {s t : State} (h : exec .poll s = .next t) (g : InSig) :
    t.signals.get (.inp g) = !s.pins.ofInput g := by
  cases h
  exact s.signals.get_latch_inp s.pins g

theorem exec_rdsig {s : State} {a : Byte} {g : Signal} (ha : a.toNat = g.id) :
    exec (.rdsig a) s = .next (s.answered (if s.signals.get g then 1#32 else 0#32)) := by
  have hbit : ∀ b : Bool, (bit b).setWidth 32 = if b then 1#32 else 0#32 := by decide
  simp only [exec, execRdsig, (Signal.ofId_eq_some a g).mpr ha, State.rsp_spec, hbit]

theorem exec_rdsig_refused {s : State} {a : Byte} (h : 6 < a.toNat) : exec (.rdsig a) s = .next s.turnedAway := by
  simp only [exec, execRdsig, (Signal.ofId_eq_none a).mpr h, State.refuse_spec]

/-! ### Who writes a signal register -/

/-- A command with a guard writes no signal register if its accepted branch writes none: a refusal writes none. -/
theorem signals_of_guarded {p : Prop} [Decidable p] {s t u : State} {v : Word}
    (h : (if p then .next s.refuse else .next (u.rsp v) : Result) = .next t) (hu : u.signals = s.signals) :
    t.signals = s.signals := by
  split at h <;> cases h
  · rfl
  · exact hu

/-- No operation but `SETSIG`, `POLL` and `RESET` writes a signal register. -/
theorem exec_keeps_signals {i : Instr} {s t : State} (hset : ∀ a c, i ≠ .setsig a c) (hpoll : i ≠ .poll)
    (hreset : i ≠ .reset) (h : exec i s = .next t) : t.signals = s.signals := by
  cases i with
  | setsig a c => exact absurd rfl (hset a c)
  | poll => exact absurd rfl hpoll
  | reset => exact absurd rfl hreset
  | rdsig a =>
    simp only [exec, execRdsig] at h
    split at h <;> cases h <;> rfl
  | bufwr a b c =>
    simp only [exec, execBufwr] at h
    split at h <;> cases h <;> rfl
  | bufrd a b =>
    simp only [exec, execBufrd] at h
    split at h <;> cases h <;> rfl
  | push c => exact signals_of_guarded h (by simp [State.push_spec])
  | pull =>
    simp only [exec, execPull, State.pull_spec] at h
    exact signals_of_guarded h s.stepCursor_signals
  | crcrst => exact signals_of_guarded h rfl
  | crcupd c => exact signals_of_guarded h rfl
  | wrseed v => exact signals_of_guarded h rfl
  | arm => exact signals_of_guarded h (by simp [State.startSession_spec])
  | wrcfg c => exact signals_of_guarded h rfl
  | wrgap g => exact signals_of_guarded h rfl
  | clrerr m => exact signals_of_guarded h rfl
  | disarm =>
    cases h
    rw [State.rsp_signals, State.endSession_spec]
    split <;> rfl
  | tick =>
    cases h
    exact s.tick_signals
  | _ =>
    cases h
    rfl

/-- `SETSIG` writes at most one output (R82). -/
theorem exec_setsig_signals {a c : Byte} {s t : State} (h : exec (.setsig a c) s = .next t) :
    t.signals = s.signals ∨ ∃ o v, t.signals = s.signals.setOut o v := by
  simp only [exec, execSetsig] at h
  split at h <;> cases h
  · exact .inr ⟨_, _, rfl⟩
  · exact .inl rfl

/-- The input registers are written by `POLL` and `RESET` only (R85). -/
theorem exec_keeps_inputRegisters {i : Instr} {s t : State} (hpoll : i ≠ .poll) (hreset : i ≠ .reset) (h : exec i s = .next t)
    (g : InSig) : t.signals.get (.inp g) = s.signals.get (.inp g) := by
  by_cases hset : ∃ a c, i = .setsig a c
  · obtain ⟨a, c, rfl⟩ := hset
    obtain hs | ⟨o, v, hs⟩ := exec_setsig_signals h
    · rw [hs]
    · simp [hs, Signals.get_setOut]
  · rw [exec_keeps_signals (fun a c hi => hset ⟨a, c, hi⟩) hpoll hreset h]

/-- The output registers are written by `SETSIG` and `RESET` only (R86). -/
theorem exec_keeps_outputRegisters {i : Instr} {s t : State} (hset : ∀ a c, i ≠ .setsig a c) (hreset : i ≠ .reset)
    (h : exec i s = .next t) (o : OutSig) : t.signals.get (.out o) = s.signals.get (.out o) := by
  by_cases hpoll : i = .poll
  · subst hpoll
    cases h
    exact s.signals.get_latch_out s.pins o
  · rw [exec_keeps_signals hset hpoll hreset h]

/-! ### The `SIGS` word (R28, R84) -/

theorem sigsWord_signal (s : State) (g : Signal) : s.sigsWord.getLsbD g.id = s.signals.get g := by
  simp only [State.sigsWord, BitVec.getLsbD_append]
  cases g with
  | out o => cases o <;> simp [Signal.id, OutSig.id, Signals.get]
  | inp i => cases i <;> simp [Signal.id, InSig.id, Signals.get]

theorem sigsWord_lines (s : State) :
    s.sigsWord.getLsbD 8 = s.engine.dataOut ∧ s.sigsWord.getLsbD 9 = s.engine.clkOut := by
  simp only [State.sigsWord, BitVec.getLsbD_append]
  simp

theorem sigsWord_bit7 (s : State) : s.sigsWord.getLsbD 7 = false := by
  simp only [State.sigsWord, BitVec.getLsbD_append]
  simp

/-- Above `clk_out` the word is its 22 zero bits. -/
theorem sigsWord_high (s : State) (k : Nat) (hk : 10 ≤ k) : s.sigsWord.getLsbD k = false := by
  obtain ⟨j, rfl⟩ := Nat.exists_eq_add_of_le' hk
  simp only [State.sigsWord, BitVec.getLsbD_append]
  simp

/-! ### The statements -/

/-- Settles O14, bit by bit. -/
theorem sigsWordLayout : Obligations.SigsWordLayout := by
  refine ⟨fun s => ?_, spelledZ_of_decodeFormat rfl fun w hw => by simp [decodeFormat, hw]⟩
  obtain ⟨hdata, hclk⟩ := sigsWord_lines s
  exact ⟨sigsWord_signal s, sigsWord_bit7 s, hdata, hclk, sigsWord_high s, rfl, _, exec_poll s, rfl⟩

/-- Settles O16: a poll latches what the pins carry, and no other operation but reset writes an input register. -/
theorem signalRegistersAreStable : Obligations.SignalRegistersAreStable := by
  refine ⟨?samePins, ?twice, fun i s t => exec_keeps_inputRegisters, fun s p rest hin => ⟨_, step_pins hin, rfl⟩,
    fun i s t => exec_keeps_outputRegisters⟩
  case samePins =>
    intro s s' t u hpins ht hu g
    rw [exec_poll_latches hu, exec_poll_latches ht, hpins]
  case twice =>
    intro s t u ht hu
    cases ht
    cases hu
    exact s.signals.latch_latch s.pins

/-- Settles O12. -/
theorem setsigDrivesOneOutput : Obligations.SetsigDrivesOneOutput := by
  refine ⟨?effect, fun s a c => exec_setsig_refused, fun w => decodeWord_setsig⟩
  intro s a c o ha hc
  have hlevel : c.toNat = (decide (c = 1#8)).toNat := by
    by_cases h1 : c = 1#8
    · simp [h1]
    · simp only [h1, decide_false, Bool.toNat_false]
      bv_omega
  refine ⟨_, exec_setsig ha hlevel, ?value, ?others, State.pinOut_eq _ o, rfl⟩
  case value => exact (Signals.get_setOut ..).trans (if_pos rfl)
  case others => exact fun g hg => (Signals.get_setOut ..).trans (if_neg hg)

/-- Settles O13. -/
theorem rdsigReturnsLogicalState : Obligations.RdsigReturnsLogicalState :=
  ⟨fun _ _ _ => exec_rdsig, fun _ _ => exec_rdsig_refused, fun _ => decodeWord_rdsig⟩

/-- Settles O15. -/
theorem pollLatchesTheInputs : Obligations.PollLatchesTheInputs := by
  refine ⟨fun s => ?effect, fun i s t => exec_keeps_inputRegisters,
    spelledZ_of_decodeFormat rfl fun w hw => by simp [decodeFormat, hw]⟩
  have hlatched := exec_poll_latches (exec_poll s)
  exact ⟨_, exec_poll s, hlatched .stopMotor, hlatched .scanMedia, hlatched .writeEnable, s.signals.get_latch_out s.pins, rfl⟩

/-- Settles O17: the polarity inverts media-set and the three inputs, and the registers are all 0 after `RESET`. -/
theorem pinsFollowPolarity : Obligations.PinsFollowPolarity := by
  refine ⟨?outputs, ?inputs, ?reset⟩
  case outputs =>
    intro s
    simp [State.pinOut_eq, Signals.get]
  case inputs =>
    intro s g
    refine ⟨_, exec_poll s, ?_⟩
    rw [exec_poll_latches (exec_poll s), Bool.not_eq_true']
  case reset =>
    intro s
    refine ⟨s.resetBlock, rfl, ?_⟩
    simp [State.pinOut_eq, State.pinDataOut, State.pinClkOut, Signals.reset, Engine.reset, Signals.get]

end Sys2Proof.Machine
end

section
/-! Several operations in a row. -/

namespace Sys2Proof.Machine

theorem runOps_cons {i : Instr} {s t : State} (is : List Instr) (h : exec i s = .next t) :
    runOps (i :: is) s = runOps is t := by
  simp [runOps, h]

theorem runOps_append {is : List Instr} {s t : State} (js : List Instr) (h : runOps is s = .next t) :
    runOps (is ++ js) s = runOps js t := by
  induction is generalizing s with
  | nil => cases h; rfl
  | cons i is ih =>
    cases hi : exec i s with
    | next u =>
      rw [runOps_cons is hi] at h
      rw [List.cons_append, runOps_cons _ hi, ih h]
    | fault r => cases r
    | refused r => simp [runOps, hi] at h

/-- What the first `k` blocks of operations establish holds with `k + 1` after the next one: so it holds, with their number, after
all of them. -/
theorem runOps_flatMap {α : Type} {f : α → List Instr} {xs : List α} {P : Nat → State → Prop}
    (hstep : ∀ (k : Nat) (hk : k < xs.length) (s : State), P k s → ∃ t, runOps (f xs[k]) s = .next t ∧ P (k + 1) t)
    {s : State} (hs : P 0 s) : ∃ t, runOps (xs.flatMap f) s = .next t ∧ P xs.length t := by
  induction xs generalizing P s with
  | nil => exact ⟨s, rfl, hs⟩
  | cons x xs ih =>
    obtain ⟨t, ht, hP⟩ := hstep 0 (Nat.zero_lt_succ _) s hs
    obtain ⟨u, hu, hPu⟩ := ih (P := fun k => P (k + 1)) (fun k hk => hstep (k + 1) (Nat.succ_lt_succ hk)) hP
    exact ⟨u, (runOps_append _ ht).trans hu, hPu⟩

/-- `runOps_flatMap` for one operation per block. -/
theorem runOps_map {α : Type} {f : α → Instr} {xs : List α} {P : Nat → State → Prop}
    (hstep : ∀ (k : Nat) (hk : k < xs.length) (s : State), P k s → ∃ t, exec (f xs[k]) s = .next t ∧ P (k + 1) t)
    {s : State} (hs : P 0 s) : ∃ t, runOps (xs.map f) s = .next t ∧ P xs.length t := by
  rw [List.map_eq_flatMap]
  refine runOps_flatMap (fun k hk s hP => ?_) hs
  obtain ⟨t, ht, hPt⟩ := hstep k hk s hP
  exact ⟨t, runOps_cons [] ht, hPt⟩

end Sys2Proof.Machine
end

section
/-! The Double Buffer Store: what its five commands do (R95 to R99). -/

namespace Sys2Proof.Machine

/-! ### The commands -/

theorem State.not_armed_of_fsm {s : State} (h : s.engine.fsm = .disarmed) : ¬ s.armed = true := fun ha => s.armed_iff.mp ha h

theorem exec_push {s : State} (c : Byte) (h : s.engine.fsm = .disarmed) :
    exec (.push c) s = .next ((s.push c).answered 0#32) :=
  if_neg (State.not_armed_of_fsm h)

theorem exec_push_refused {s : State} (c : Byte) (h : s.engine.fsm ≠ .disarmed) : exec (.push c) s = .next s.turnedAway :=
  if_pos (s.armed_iff.mpr h)

theorem exec_pull {s : State} (h : s.engine.fsm = .disarmed) :
    exec .pull s = .next (s.stepCursor.answered ((s.store.ram.read s.cursorAddr).setWidth 32)) := by
  simp only [exec, execPull, State.pull_spec, if_neg (State.not_armed_of_fsm h), State.rsp_spec]

theorem exec_pull_refused {s : State} (h : s.engine.fsm ≠ .disarmed) : exec .pull s = .next s.turnedAway :=
  if_pos (s.armed_iff.mpr h)

theorem exec_consume (s : State) :
    exec .consume s =
      .next ((s.withStore { s.store with refill := none }).answered ((refillCode s.store.refill).setWidth 32)) := rfl

theorem exec_bufwr {s : State} {a : Byte} {d : BufId} (b c : Byte) (ha : a.toNat = d.index) :
    exec (.bufwr a b c) s = .next ((s.setBufByte d b c).answered 0#32) := by
  simp only [exec, execBufwr, (BufId.ofId_eq_some a d).mpr ha, State.rsp_spec]

theorem exec_bufwr_refused {s : State} {a : Byte} (b c : Byte) (ha : 1 < a.toNat) :
    exec (.bufwr a b c) s = .next s.turnedAway := by
  simp only [exec, execBufwr, (BufId.ofId_eq_none a).mpr ha, State.refuse_spec]

theorem exec_bufrd {s : State} {a : Byte} {d : BufId} (b : Byte) (ha : a.toNat = d.index) :
    exec (.bufrd a b) s = .next (s.answered ((s.bufByte d b).setWidth 32)) := by
  simp only [exec, execBufrd, (BufId.ofId_eq_some a d).mpr ha, State.rsp_spec]

theorem exec_bufrd_refused {s : State} {a : Byte} (b : Byte) (ha : 1 < a.toNat) :
    exec (.bufrd a b) s = .next s.turnedAway := by
  simp only [exec, execBufrd, (BufId.ofId_eq_none a).mpr ha, State.refuse_spec]

theorem BufId.exists_index_eq {n : Nat} (h : n ≤ 1) : ∃ d : BufId, n = d.index := by
  interval_cases n
  · exact ⟨.buf0, rfl⟩
  · exact ⟨.buf1, rfl⟩

theorem BufId.toNat_toByte (b : BufId) : b.toByte.toNat = b.index := by cases b <;> rfl

/-! ### The statements about one command -/

/-- Settles O18: the write is to the byte under the cursor, and the rest is the cursor step. -/
theorem pushWritesUnderTheCursor : Obligations.PushWritesUnderTheCursor := by
  refine ⟨fun s c hd => ⟨_, exec_push c hd, ?written, ?others, ?frame⟩, fun s c => exec_push_refused c,
    spelledC_of_decodeFormat (fun c => by simpa [Instr.wf] using c.isLt) fun w hw => by simp [decodeFormat, hw]⟩
  case written =>
    change (s.push c).store.ram.read s.cursorAddr = c
    rw [State.push_ram, Memory.read_write_same]
  case others =>
    intro a ha
    change (s.push c).store.ram.read a = s.store.ram.read a
    rw [State.push_ram, Memory.read_write_other _ _ ha]
  case frame => simp [State.push_spec, State.answered]

/-- Settles O19. -/
theorem pullReadsUnderTheCursor : Obligations.PullReadsUnderTheCursor :=
  ⟨fun _ => exec_pull, fun s a => by rw [State.stepCursor_ram], fun _ => exec_pull_refused,
    spelledZ_of_decodeFormat rfl fun w hw => by simp [decodeFormat, hw]⟩

/-- Settles O20: the second `CONSUME` finds the request that the first one cleared. -/
theorem consumeReadsAndClears : Obligations.ConsumeReadsAndClears := by
  refine ⟨fun s => ?effect, fun s t h => ?second, spelledZ_of_decodeFormat rfl fun w hw => by simp [decodeFormat, hw]⟩
  case effect =>
    rw [exec_consume]
    rcases hr : s.store.refill with - | (- | -) <;> rfl
  case second =>
    cases h
    rfl

/-- Settles O21. -/
theorem bufwrWritesOneByte : Obligations.BufwrWritesOneByte := by
  refine ⟨fun s a b c ha => ?effect, fun s a b c => exec_bufwr_refused b c, fun w => decodeWord_bufwr⟩
  obtain ⟨d, hd⟩ := BufId.exists_index_eq ha
  rw [hd]
  exact ⟨_, exec_bufwr b c hd, Memory.read_write_same .., fun x hx => Memory.read_write_other _ _ hx, rfl⟩

/-- Settles O22. -/
theorem bufrdReadsOneByte : Obligations.BufrdReadsOneByte := by
  refine ⟨fun s a b ha => ?effect, fun s a b => exec_bufrd_refused b, fun w => decodeWord_bufrd⟩
  obtain ⟨d, hd⟩ := BufId.exists_index_eq ha
  rw [hd]
  exact exec_bufrd b hd

end Sys2Proof.Machine
end

section
/-! A pending request names the buffer that is not active (R92, last sentence). -/

namespace Sys2Proof.Machine

theorem RequestNamesVacated.of_fields {s t : State} (hs : RequestNamesVacated s) (hsel : t.store.sel = s.store.sel)
    (hrefill : t.store.refill = s.store.refill) : RequestNamesVacated t := by
  rwa [RequestNamesVacated, hsel, hrefill]

theorem requestNamesVacated_of_none {s : State} (h : s.store.refill = none) : RequestNamesVacated s := by
  simp [RequestNamesVacated, h]

/-- A wrap requests the buffer it leaves; any other access moves neither register (R92). -/
theorem State.stepCursor_keeps_requestNamesVacated {s : State} (hs : RequestNamesVacated s) :
    RequestNamesVacated s.stepCursor := by
  unfold State.stepCursor
  split
  · intro b hb
    cases hb
    cases h : s.store.sel <;> simp
  · exact hs.of_fields rfl rfl

theorem PortUse.keeps_requestNamesVacated {s t : State} (h : PortUse s t) (hs : RequestNamesVacated s) :
    RequestNamesVacated t := by
  have hstep := State.stepCursor_keeps_requestNamesVacated hs
  obtain ⟨h, -⟩ | ⟨h, -⟩ | ⟨v, h, -⟩ := h
  · exact hs.of_fields (by rw [h]) (by rw [h])
  · exact hstep.of_fields (by rw [h]) (by rw [h])
  · exact hstep.of_fields (by rw [h, State.push_spec]) (by rw [h, State.push_spec])

theorem exec_keeps_requestNamesVacated (i : Instr) (s t : State) (hs : RequestNamesVacated s) (h : exec i s = .next t) :
    RequestNamesVacated t := by
  cases exec_effect h with
  | push c => exact PortUse.keeps_requestNamesVacated (.inr (.inr ⟨c, rfl, s.push_flags c⟩)) hs
  | pull v => exact PortUse.keeps_requestNamesVacated (.inr (.inl ⟨rfl, rfl⟩)) hs
  | tick => exact s.tick_portUse.keeps_requestNamesVacated hs
  | consume v => exact requestNamesVacated_of_none rfl
  | arm _ => exact requestNamesVacated_of_none (by simp [State.startSession_spec])
  | reset => exact requestNamesVacated_of_none rfl
  | disarm => exact hs.of_fields (by simp [State.endSession_spec]) (by simp [State.endSession_spec])
  | _ => exact hs

/-- Settles O48: `CONSUME`, `ARM` and `RESET` leave no request, and of the other operations only a cursor step writes `sel` or
`refill`. -/
theorem stepKeepsRequestNamesVacated : Obligations.StepKeepsRequestNamesVacated :=
  step_keeps (fun _ _ hstore _ hs => hs.of_fields (by rw [hstore]) (by rw [hstore])) exec_keeps_requestNamesVacated

end Sys2Proof.Machine
end

section
/-! Accesses through the engine port, counted from buffer 0, index 0: where they take the cursor, and what they request (R102). -/

namespace Sys2Proof.Machine

/-! ### The cursor -/

/-- The cursor stands where `k` accesses from buffer 0, index 0 take it. -/
structure CursorAfter (k : Nat) (s : State) : Prop where
  cur : s.store.cur = BitVec.ofNat 8 k
  sel : s.store.sel = requestedBuffer (k / 256 + 1)

theorem CursorAfter.zero {s : State} (hcur : s.store.cur = 0#8) (hsel : s.store.sel = .buf0) : CursorAfter 0 s :=
  ⟨hcur, hsel⟩

theorem requestedBuffer_succ (j : Nat) :
    requestedBuffer (j + 1) = if requestedBuffer j = .buf0 then .buf1 else .buf0 := by
  unfold requestedBuffer
  by_cases h : j % 2 = 1
  · simp [h, show ¬ (j + 1) % 2 = 1 by omega]
  · simp [h, show (j + 1) % 2 = 1 by omega]

section
variable {k : Nat} {s : State}

/-- Every 256th access wraps. -/
theorem CursorAfter.cur_eq_last_iff (h : CursorAfter k s) : s.store.cur = 255#8 ↔ (k + 1) % 256 = 0 := by
  rw [h.cur, BitVec.toNat_eq, BitVec.toNat_ofNat, show (255#8).toNat = 255 from rfl]
  omega

theorem CursorAfter.stepCursor (h : CursorAfter k s) : CursorAfter (k + 1) s.stepCursor := by
  unfold State.stepCursor
  split
  next hlast =>
    have hk := h.cur_eq_last_iff.mp hlast
    refine ⟨?_, ?_⟩
    · apply BitVec.eq_of_toNat_eq
      simp [hk]
    · rw [show (k + 1) / 256 = k / 256 + 1 by omega, requestedBuffer_succ, ← h.sel]
  next hlast =>
    rw [h.cur_eq_last_iff] at hlast
    refine ⟨?_, ?_⟩
    · rw [BitVec.ofNat_add, ← h.cur]
    · rw [show (k + 1) / 256 = k / 256 by omega, ← h.sel]

theorem CursorAfter.stepCursor_refill (h : CursorAfter k s) :
    s.stepCursor.store.refill =
      if (k + 1) % 256 = 0 then some (requestedBuffer ((k + 1) / 256)) else s.store.refill := by
  unfold State.stepCursor
  simp only [h.cur_eq_last_iff]
  split
  · rw [show (k + 1) / 256 = k / 256 + 1 by omega, ← h.sel]
  · rfl

theorem CursorAfter.stepCursor_underrun (h : CursorAfter k s) :
    s.stepCursor.flags.underrun = (s.flags.underrun || decide ((k + 1) % 256 = 0) && s.store.refill.isSome) := by
  unfold State.stepCursor
  simp only [h.cur_eq_last_iff]
  split <;> simp [*]

end

/-! ### One access -/

/-- `s` after one access through the engine port that leaves the RAM as `m` and answers `v` (R93, R94). -/
def State.accessed (s : State) (m : Memory) (v : Word) : State :=
  (s.stepCursor.withStore { s.stepCursor.store with ram := m }).answered v

/-- A `PULL` or a `PUSH` while disarmed is a cursor step, whatever else it does to the RAM. -/
theorem exec_access {i : Instr} {s : State} (hd : s.engine.fsm = .disarmed) (hi : i = .pull ∨ ∃ c, i = .push c) :
    ∃ m v, exec i s = .next (s.accessed m v) := by
  rcases hi with rfl | ⟨c, rfl⟩
  · exact ⟨s.stepCursor.store.ram, _, exec_pull hd⟩
  · refine ⟨s.store.ram.write s.cursorAddr c, 0#32, ?_⟩
    rw [exec_push c hd, State.push_spec]
    rfl

/-! ### Without `CONSUME` -/

/-- `k` accesses have been made from buffer 0, index 0, with no `CONSUME`; `u` is what `underrun` was at the start. -/
structure Unattended (u : Bool) (k : Nat) (s : State) : Prop where
  disarmed : s.engine.fsm = .disarmed
  cursor : CursorAfter k s
  refill : s.store.refill = requestAfter k
  underrun : s.flags.underrun = (u || decide (512 ≤ k))

theorem requestAfter_succ (k : Nat) :
    requestAfter (k + 1) = if (k + 1) % 256 = 0 then some (requestedBuffer ((k + 1) / 256)) else requestAfter k := by
  unfold requestAfter
  by_cases hwrap : (k + 1) % 256 = 0
  · rw [if_pos hwrap, if_neg (by omega)]
  · rw [if_neg hwrap, show (k + 1) / 256 = k / 256 by omega]
    simp only [show k + 1 < 256 ↔ k < 256 by omega]

theorem isSome_requestAfter (k : Nat) : (requestAfter k).isSome = decide (256 ≤ k) := by
  unfold requestAfter
  split_ifs <;> simp <;> omega

theorem Unattended.accessed {u : Bool} {k : Nat} {s : State} (h : Unattended u k s) (m : Memory) (v : Word) :
    Unattended u (k + 1) (s.accessed m v) where
  disarmed := (congrArg Engine.fsm s.stepCursor_engine).trans h.disarmed
  cursor := ⟨h.cursor.stepCursor.cur, h.cursor.stepCursor.sel⟩
  refill := by
    rw [requestAfter_succ, ← h.refill]
    exact h.cursor.stepCursor_refill
  underrun := by
    refine h.cursor.stepCursor_underrun.trans ?_
    rw [h.underrun, h.refill, isSome_requestAfter, Bool.or_assoc, ← Bool.decide_and, ← Bool.decide_or]
    congr 2
    simp only [eq_iff_iff]
    omega

theorem requestedBuffer_index (j : Nat) : (requestedBuffer (j + 1)).index = j % 2 := by
  unfold requestedBuffer
  split_ifs <;> simp only [BufId.index] <;> omega

/-- Settles O23, access by access. -/
theorem accessCountGivesCursor : Obligations.AccessCountGivesCursor := by
  intro s is hd hsel hcur hrefill his
  have hstart : Unattended s.flags.underrun 0 s := ⟨hd, .zero hcur hsel, hrefill, by simp⟩
  obtain ⟨t, ht, hend⟩ := runOps_map (f := id) (xs := is) (fun k hk u hu => by
    obtain ⟨m, v, hx⟩ := exec_access hu.disarmed (his _ (List.getElem_mem hk))
    exact ⟨_, hx, hu.accessed m v⟩) hstart
  rw [List.map_id] at ht
  refine ⟨t, ht, ?_, ?_, hend.refill, hend.underrun⟩
  · rw [hend.cursor.cur, BitVec.toNat_ofNat]
  · rw [hend.cursor.sel, requestedBuffer_index]

/-! ### With a `CONSUME` after every access -/

/-- What the `CONSUME` after the `k`-th access answers (R102). -/
def requestWord (k : Nat) : Word := if k % 256 = 0 then (if k / 256 % 2 = 1 then 1#32 else 2#32) else 0#32

/-- `k` accesses have been made from buffer 0, index 0, each with a `CONSUME` after it; `u` is what `underrun` was at the start. -/
structure Attended (u : Bool) (k : Nat) (s : State) : Prop where
  disarmed : s.engine.fsm = .disarmed
  cursor : CursorAfter k s
  refill : s.store.refill = none
  underrun : s.flags.underrun = u
  answer : k ≠ 0 → s.responses.head? = some { err := false, data := requestWord k }

theorem requestWord_eq (k : Nat) :
    (refillCode (if k % 256 = 0 then some (requestedBuffer (k / 256)) else none)).setWidth 32 = requestWord k := by
  unfold requestWord requestedBuffer
  split_ifs <;> rfl

theorem Attended.step {u : Bool} {k : Nat} {s : State} {i : Instr} (h : Attended u k s) (hi : i = .pull ∨ ∃ c, i = .push c) :
    ∃ t, runOps [i, .consume] s = .next t ∧ Attended u (k + 1) t := by
  obtain ⟨m, v, hx⟩ := exec_access h.disarmed hi
  have hrefill := h.cursor.stepCursor_refill
  rw [h.refill] at hrefill
  refine ⟨_, by rw [runOps_cons _ hx, runOps_cons _ (exec_consume _)]; rfl, ?_⟩
  constructor
  case disarmed => exact (congrArg Engine.fsm s.stepCursor_engine).trans h.disarmed
  case cursor => exact ⟨h.cursor.stepCursor.cur, h.cursor.stepCursor.sel⟩
  case refill => rfl
  case underrun =>
    refine h.cursor.stepCursor_underrun.trans ?_
    rw [h.underrun, h.refill, Option.isSome_none, Bool.and_false, Bool.or_false]
  case answer =>
    intro _
    rw [← requestWord_eq, ← hrefill]
    rfl

/-- Settles O24: a wrap never finds a request pending. -/
theorem consumerSeesAlternatingRequests : Obligations.ConsumerSeesAlternatingRequests := by
  intro s is hd hsel hcur hrefill his hne
  have hstart : Attended s.flags.underrun 0 s := ⟨hd, .zero hcur hsel, hrefill, rfl, fun h => absurd rfl h⟩
  obtain ⟨t, ht, hend⟩ := runOps_flatMap (f := fun i => [i, .consume])
    (fun k hk u hu => hu.step (his _ (List.getElem_mem hk))) hstart
  exact ⟨t, ht, hend.answer (List.length_pos_iff.mpr hne).ne', hend.refill, hend.underrun⟩

end Sys2Proof.Machine
end

section
/-! The two block transfers of the host, `FILL` and `DRAIN`, byte by byte (R100, R101). -/

namespace Sys2Proof.Machine

theorem ramAddr_ofNat (b : BufId) {k : Nat} (hk : k < 256) : ramAddr b (BitVec.ofNat 8 k) = 256 * b.index + k := by
  rw [ramAddr, BitVec.toNat_ofNat, Nat.mod_eq_of_lt hk]
  rfl

theorem fillCommands_of_length_le (b : BufId) {data : List Byte} (hlen : data.length ≤ 256) :
    fillCommands b data = data.zipIdx.map fun x => .bufwr b.toByte (BitVec.ofNat 8 x.2) x.1 := by
  rw [fillCommands, Config.bufferSize, List.take_of_length_le hlen]

/-- `t` is `s` with the first `k` bytes of `data` put into buffer `b`. -/
structure FilledUpTo (s : State) (b : BufId) (data : List Byte) (k : Nat) (t : State) : Prop where
  filled : ∀ i, i < k → t.store.ram.read (256 * b.index + i) = data.getD i 0#8
  others : ∀ a, a < 256 * b.index ∨ 256 * b.index + k ≤ a → t.store.ram.read a = s.store.ram.read a
  frame : t = { s with
    store := { s.store with ram := t.store.ram }
    responses := List.replicate k { err := false, data := 0#32 } ++ s.responses }

theorem FilledUpTo.zero (s : State) (b : BufId) (data : List Byte) : FilledUpTo s b data 0 s :=
  ⟨fun _ hi => absurd hi (Nat.not_lt_zero _), fun _ _ => rfl, rfl⟩

theorem FilledUpTo.bufwr {s t : State} {b : BufId} {data : List Byte} {k : Nat} (h : FilledUpTo s b data k t)
    (hk : k < data.length) (hlen : data.length ≤ 256) :
    FilledUpTo s b data (k + 1) ((t.setBufByte b (BitVec.ofNat 8 k) data[k]).answered 0#32) := by
  have hread : ∀ x, ((t.setBufByte b (BitVec.ofNat 8 k) data[k]).answered 0#32).store.ram.read x =
      if x = 256 * b.index + k then data[k] else t.store.ram.read x := by
    intro x
    rw [← ramAddr_ofNat b (hk.trans_le hlen)]
    exact Memory.read_write ..
  constructor
  case filled =>
    intro i hi
    rw [hread]
    split
    next hik =>
      obtain rfl : i = k := by omega
      rw [List.getD_eq_getElem _ _ hk]
    next hik => exact h.filled i (by omega)
  case others =>
    intro a ha
    rw [hread, if_neg (by omega), h.others a (by omega)]
  case frame =>
    conv_lhs => rw [h.frame]
    rfl

theorem runOps_fillCommands (s : State) (b : BufId) {data : List Byte} (hlen : data.length ≤ 256) :
    ∃ t, runOps (fillCommands b data) s = .next t ∧ FilledUpTo s b data data.length t := by
  rw [fillCommands_of_length_le b hlen, ← List.length_zipIdx (l := data) (i := 0)]
  refine runOps_map (P := FilledUpTo s b data) ?_ (.zero s b data)
  intro k hk t ht
  rw [List.length_zipIdx] at hk
  refine ⟨_, exec_bufwr _ _ b.toNat_toByte, ?_⟩
  simpa using ht.bufwr hk hlen

/-- The state in which the first `k` bytes of buffer `b` have been read. -/
def State.drainedUpTo (s : State) (b : BufId) (k : Nat) : State :=
  { s with
    responses :=
      ((List.range k).map fun i =>
        ({ err := false, data := (s.store.ram.read (256 * b.index + i)).setWidth 32 } : Response)).reverse ++ s.responses }

theorem State.drainedUpTo_bufrd (s : State) (b : BufId) {k : Nat} (hk : k < 256) :
    exec (.bufrd b.toByte (BitVec.ofNat 8 k)) (s.drainedUpTo b k) = .next (s.drainedUpTo b (k + 1)) := by
  rw [exec_bufrd _ b.toNat_toByte, State.bufByte, ramAddr_ofNat b hk]
  simp only [State.drainedUpTo, State.answered, List.range_succ, List.map_append, List.reverse_append]
  rfl

theorem runOps_drainCommands (s : State) (b : BufId) : runOps (drainCommands b) s = .next (s.drainedUpTo b 256) := by
  obtain ⟨t, ht, rfl⟩ := runOps_map (xs := List.range Config.bufferSize) (P := fun k t => t = s.drainedUpTo b k)
    (f := fun i => .bufrd b.toByte (BitVec.ofNat 8 i)) (fun k hk t ht => by
      rw [List.length_range] at hk
      rw [ht, List.getElem_range]
      exact ⟨_, s.drainedUpTo_bufrd b hk, rfl⟩) (s := s) rfl
  rwa [List.length_range] at ht

/-- Settles O25: each command moves the byte of its own index. -/
theorem fillAndDrainMoveABuffer : Obligations.FillAndDrainMoveABuffer := by
  refine ⟨fun s b data hlen => ?fill, fun s b => runOps_drainCommands s b⟩
  obtain ⟨t, ht, hend⟩ := runOps_fillCommands s b hlen
  exact ⟨t, ht, hend.filled, hend.others, hend.frame⟩

end Sys2Proof.Machine
end

section
/-! The recurrence of the CRC-16 Accumulator (R106): one step, its linearity, and what entering data bits do. -/

namespace Sys2Proof.Machine

/-! ### One step -/

/-- The form of one step that R106 gives under the pseudocode. -/
theorem crcStep_eq_xor (c : BitVec 16) (d : Bool) :
    crcStep c d = (c >>> 1) ^^^ (if c.getLsbD 0 then Config.crcPoly else 0#16) ^^^ (if d then Config.crcTop else 0#16) := by
  unfold crcStep
  cases c.getLsbD 0 <;> cases d <;> simp

/-- Selecting a mask by a bit is linear in the bit. -/
theorem ite_bne_zero_eq_xor {w : Nat} (m : BitVec w) (d d' : Bool) :
    (if (d ^^ d') = true then m else 0#w) = (if d then m else 0#w) ^^^ (if d' then m else 0#w) := by
  cases d <;> cases d' <;> simp

theorem crcStep_xor (c c' : BitVec 16) (d d' : Bool) : crcStep (c ^^^ c') (d ^^ d') = crcStep c d ^^^ crcStep c' d' := by
  simp only [crcStep_eq_xor, BitVec.ushiftRight_xor_distrib, BitVec.getLsbD_xor, ite_bne_zero_eq_xor]
  ac_rfl

/-- The bit shifted out and the data bit meet in bit 15. -/
theorem crcStep_topBit (c : BitVec 16) (d : Bool) : (crcStep c d).getLsbD 15 = (c.getLsbD 0 ^^ d) := by
  rw [crcStep_eq_xor]
  cases c.getLsbD 0 <;> cases d <;> simp [Config.crcPoly, Config.crcTop]

/-- While a 0 is shifted out, the register is a shift register that the data bit enters at the top. -/
theorem crcStep_getLsbD {c : BitVec 16} (d : Bool) (h : c.getLsbD 0 = false) {k : Nat} (hk : k < 15) :
    (crcStep c d).getLsbD k = c.getLsbD (k + 1) := by
  have htop : (if d then Config.crcTop else 0#16).getLsbD k = false := by
    cases d with
    | false => exact BitVec.getLsbD_zero
    | true => interval_cases k <;> rfl
  rw [crcStep_eq_xor, h]
  simp [htop, Nat.add_comm]

/-- A step with data bit 0 loses nothing: a bit shifted out comes back in bit 15. -/
theorem crcStep_false_eq_zero_iff (c : BitVec 16) : crcStep c false = 0#16 ↔ c = 0#16 := by
  refine ⟨fun h => ?_, fun h => by rw [h]; rfl⟩
  have hout : c.getLsbD 0 = false := by simpa [h] using (crcStep_topBit c false).symm
  refine BitVec.eq_of_getLsbD_eq fun k hk => ?_
  cases k with
  | zero => rw [hout, BitVec.getLsbD_zero]
  | succ k => rw [← crcStep_getLsbD false hout (Nat.lt_of_succ_lt_succ hk), h, BitVec.getLsbD_zero, BitVec.getLsbD_zero]

/-! ### One byte -/

/-- Each of the eight steps is linear. -/
theorem crcUpdate_xor (c c' : BitVec 16) (b b' : Byte) :
    crcUpdate (c ^^^ c') (b ^^^ b') = crcUpdate c b ^^^ crcUpdate c' b' := by
  simp only [crcUpdate, List.foldl_cons, List.foldl_nil, BitVec.getLsbD_xor, crcStep_xor]

/-- Settles O28. -/
theorem crcUpdateIsLinear : Obligations.CrcUpdateIsLinear := crcUpdate_xor

theorem crcUpdate_zero_eq_zero_iff (c : BitVec 16) : crcUpdate c 0x00#8 = 0#16 ↔ c = 0#16 := by
  simp [crcUpdate, crcStep_false_eq_zero_iff]

theorem foldl_crcUpdate_zeros_eq_zero_iff (c : BitVec 16) (n : Nat) :
    (List.replicate n 0x00#8).foldl crcUpdate c = 0#16 ↔ c = 0#16 := by
  induction n generalizing c with
  | zero => rfl
  | succ n ih => rw [List.replicate_succ, List.foldl_cons, ih, crcUpdate_zero_eq_zero_iff]

/-! ### Data bits entering a zero register -/

/-- The first 16 data bits only move in from the top: `n` of the 16 places are still 0 below them, and nothing has been shifted out. -/
theorem foldl_crcStep_range (v : BitVec 16) {k n : Nat} (hkn : k + n = 16) :
    (List.range k).foldl (fun c i => crcStep c (v.getLsbD i)) 0#16 = v <<< n := by
  induction k generalizing n with
  | zero =>
    obtain rfl : n = 16 := by omega
    exact (BitVec.shiftLeft_eq_zero le_rfl).symm
  | succ k ih =>
    have hout : (v <<< (n + 1)).getLsbD 0 = false := by simp
    rw [List.range_succ, List.foldl_append, ih (n := n + 1) (by omega), List.foldl_cons, List.foldl_nil]
    refine BitVec.eq_of_getLsbD_eq fun j hj => ?_
    obtain rfl | hj : j = 15 ∨ j < 15 := by omega
    · obtain rfl : k = 15 - n := by omega
      have hn : ¬ 15 < n := by omega
      rw [crcStep_topBit, hout, Bool.false_xor, BitVec.getLsbD_shiftLeft]
      simp [-BitVec.getLsbD_eq_getElem, hn]
    · rw [crcStep_getLsbD _ hout hj]
      simp [-BitVec.getLsbD_eq_getElem, Nat.lt_succ_of_lt hj, Nat.succ_lt_succ hj]

/-- A byte and a zero byte, 16 data bits, leave the byte in the low end of a zero register. -/
theorem crcUpdate_crcUpdate_zero (b : Byte) : crcUpdate (crcUpdate 0#16 b) 0x00#8 = b.setWidth 16 := by
  have h := foldl_crcStep_range (b.setWidth 16) (k := 16) (n := 0) rfl
  rw [BitVec.shiftLeft_zero] at h
  rw [← h]
  simp [-BitVec.getLsbD_eq_getElem, crcUpdate, List.range_succ, BitVec.getLsbD_setWidth]

/-! ### The common reflected CRC -/

/-- The eight shifts of the reflected CRC are the eight steps for a zero byte. -/
theorem reflectedShift8_eq_crcUpdate (c : BitVec 16) : reflectedShift8 c = crcUpdate c 0x00#8 := by
  simp [reflectedShift8, crcUpdate, crcStep, Config.crcPoly]

/-- Two zero bytes after each message turn a step of the register into a step of the reflected CRC: by linearity the new byte passes
through beside the register, and comes out of the first zero byte in the low end, where the reflected CRC puts it at once. -/
theorem crcUpdate_zeros_step (c : BitVec 16) (b : Byte) :
    crcUpdate (crcUpdate (crcUpdate c b) 0x00#8) 0x00#8 =
      reflectedShift8 (crcUpdate (crcUpdate c 0x00#8) 0x00#8 ^^^ b.setWidth 16) := by
  have hsplit (x y : BitVec 16) (d : Byte) : crcUpdate (x ^^^ y) d = crcUpdate x 0x00#8 ^^^ crcUpdate y d := by
    simpa using crcUpdate_xor x y 0x00#8 d
  calc crcUpdate (crcUpdate (crcUpdate c b) 0x00#8) 0x00#8
      = crcUpdate (crcUpdate (crcUpdate c 0x00#8 ^^^ crcUpdate 0#16 b) 0x00#8) 0x00#8 := by rw [← hsplit, BitVec.xor_zero]
    _ = crcUpdate (crcUpdate (crcUpdate c 0x00#8) 0x00#8 ^^^ b.setWidth 16) 0x00#8 := by rw [hsplit, crcUpdate_crcUpdate_zero]
    _ = _ := (reflectedShift8_eq_crcUpdate _).symm

/-- Two zero bytes carry the run of the register over a message to the run of the reflected CRC. -/
theorem foldl_crcUpdate_padded (c : BitVec 16) (m : List Byte) :
    crcUpdate (crcUpdate (m.foldl crcUpdate c) 0x00#8) 0x00#8 =
      m.foldl (fun c b => reflectedShift8 (c ^^^ b.setWidth 16)) (crcUpdate (crcUpdate c 0x00#8) 0x00#8) :=
  (List.foldl_hom (fun c => crcUpdate (crcUpdate c 0x00#8) 0x00#8) fun c b => (crcUpdate_zeros_step c b).symm).symm

/-- Settles O30: the two runs begin with the same register, 0. -/
theorem crcOfPaddedMessageIsReflectedCrc : Obligations.CrcOfPaddedMessageIsReflectedCrc := by
  intro m
  have hstart : crcUpdate (crcUpdate 0#16 0x00#8) 0x00#8 = 0#16 := crcUpdate_crcUpdate_zero 0x00#8
  rw [List.foldl_append, List.foldl_cons, List.foldl_cons, List.foldl_nil, foldl_crcUpdate_padded, hstart, reflectedCrc]

end Sys2Proof.Machine
end

section
/-! The commands of the CRC-16 Accumulator and the configuration writes (R107 to R109, R129 to R131). -/

namespace Sys2Proof.Machine

/-! ### The accumulator -/

section
variable {s : State}

theorem State.not_crcOwned (h : s.engine.fsm = .disarmed ∨ s.engine.cfg.getLsbD 4 = false) : ¬ s.crcOwned = true := by
  rw [s.crcOwned_iff, not_and_or, not_not, Bool.not_eq_true]
  exact h

theorem exec_crcrst (h : s.engine.fsm = .disarmed ∨ s.engine.cfg.getLsbD 4 = false) :
    exec .crcrst s = .next (s.crcReload.answered 0#32) :=
  if_neg (State.not_crcOwned h)

theorem exec_crcupd (c : Byte) (h : s.engine.fsm = .disarmed ∨ s.engine.cfg.getLsbD 4 = false) :
    exec (.crcupd c) s = .next ((s.crcFeed c).answered ((crcUpdate s.crc.value c).setWidth 32)) :=
  if_neg (State.not_crcOwned h)

theorem exec_crcCommand_refused {i : Instr} (hi : i = .crcrst ∨ ∃ c, i = .crcupd c) (hfsm : s.engine.fsm ≠ .disarmed)
    (hcfg : s.engine.cfg.getLsbD 4 = true) : exec i s = .next s.turnedAway := by
  have howned : s.crcOwned = true := s.crcOwned_iff.mpr ⟨hfsm, hcfg⟩
  obtain rfl | ⟨c, rfl⟩ := hi
  · exact if_pos howned
  · exact if_pos howned

/-- Feeding bytes leaves the engine as it is, so that each next `CRCUPD` is accepted too. -/
theorem runOps_crcupd (bs : List Byte) (h : s.engine.fsm = .disarmed ∨ s.engine.cfg.getLsbD 4 = false) :
    ∃ t, runOps (bs.map .crcupd) s = .next t ∧ t.crc.value = bs.foldl crcUpdate s.crc.value := by
  induction bs generalizing s with
  | nil => exact ⟨s, rfl, rfl⟩
  | cons b bs ih =>
    rw [List.map_cons, runOps_cons _ (exec_crcupd b h)]
    exact ih h

end

/-- Settles O29: the run of `CRCUPD`, and what zero bytes do to a zero and to a nonzero register. -/
theorem crcIsDeterministicAndZeroStaysZero : Obligations.CrcIsDeterministicAndZeroStaysZero := by
  refine ⟨fun s bs => runOps_crcupd bs, (crcUpdate_zero_eq_zero_iff _).mpr rfl, fun n bs => ?leadingZeros, fun c n => ?nonzero⟩
  case leadingZeros => rw [List.foldl_append, (foldl_crcUpdate_zeros_eq_zero_iff _ n).mpr rfl]
  case nonzero => exact (foldl_crcUpdate_zeros_eq_zero_iff c n).not.mpr

/-- Settles O27. -/
theorem crcCommandsUpdateTheAccumulator : Obligations.CrcCommandsUpdateTheAccumulator :=
  ⟨fun _ => exec_crcrst, fun _ c => exec_crcupd c,
    fun _ c hfsm hcfg => ⟨exec_crcCommand_refused (.inl rfl) hfsm hcfg, exec_crcCommand_refused (.inr ⟨c, rfl⟩) hfsm hcfg⟩,
    spelledZ_of_decodeFormat rfl fun w hw => by simp [decodeFormat, hw],
    spelledC_of_decodeFormat (fun c => by simpa [Instr.wf] using c.isLt) fun w hw => by simp [decodeFormat, hw]⟩

/-! ### The configuration writes -/

section
variable {s : State}

theorem exec_wrseed (v : BitVec 16) (h : s.engine.fsm = .disarmed) :
    exec (.wrseed v) s = .next ((s.withCrc { s.crc with seed := v }).answered 0#32) :=
  if_neg (State.not_armed_of_fsm h)

theorem exec_wrseed_refused (v : BitVec 16) (h : s.engine.fsm ≠ .disarmed) : exec (.wrseed v) s = .next s.turnedAway :=
  if_pos (s.armed_iff.mpr h)

theorem exec_wrgap (g : BitVec 24) (h : s.engine.fsm = .disarmed) :
    exec (.wrgap g) s = .next ((s.withEngine { s.engine with gapLen := g }).answered 0#32) :=
  if_neg (State.not_armed_of_fsm h)

theorem exec_wrgap_refused (g : BitVec 24) (h : s.engine.fsm ≠ .disarmed) : exec (.wrgap g) s = .next s.turnedAway :=
  if_pos (s.armed_iff.mpr h)

theorem exec_wrcfg {c : Byte} (h : s.engine.fsm = .disarmed) (hc : c.toNat < 32) :
    exec (.wrcfg c) s = .next ((s.withEngine { s.engine with cfg := c.setWidth 5 }).answered 0#32) := by
  have haccept : ¬ (c.extractLsb' 5 3 ≠ 0#3 ∨ s.armed = true) := by
    rw [wrcfg_reserved_iff]
    exact not_or.mpr ⟨not_not.mpr hc, State.not_armed_of_fsm h⟩
  rw [BitVec.setWidth_eq_extractLsb' (by decide)]
  exact if_neg haccept

theorem exec_wrcfg_refused {c : Byte} (h : s.engine.fsm ≠ .disarmed ∨ 32 ≤ c.toNat) : exec (.wrcfg c) s = .next s.turnedAway := by
  refine if_pos ?_
  rw [wrcfg_reserved_iff, s.armed_iff, Nat.not_lt]
  exact h.symm

end

theorem decodeWord_wrgap {w : Word} (hop : opField w = 0x43#8) : decodeWord w = some (.wrgap (imm24Field w)) := by
  simp [decodeWord, decodeFormat, hop, formatI24, Instr.wf, Option.filter_some]

/-- Settles O33. -/
theorem configurationWrites : Obligations.ConfigurationWrites :=
  ⟨fun _ v => exec_wrseed v, fun _ _ => exec_wrcfg, fun _ g => exec_wrgap g, fun _ _ => rfl,
    fun _ v _ g h => ⟨exec_wrseed_refused v h, exec_wrcfg_refused (.inl h), exec_wrgap_refused g h⟩,
    fun _ _ h => exec_wrcfg_refused (.inr h), fun _ => decodeWord_wrseed, fun _ => decodeWord_wrgap, spelledC_wrcfg,
    spelledC_of_decodeFormat (fun c => by simpa [Instr.wf] using c.isLt) fun w hw => by simp [decodeFormat, hw]⟩

end Sys2Proof.Machine
end

section
/-! One tick, case by case: what it leaves in each engine state, phase and direction (R120 to R126). -/

namespace Sys2Proof.Machine

variable {s : State}

theorem exec_tick (s : State) : exec .tick s = .next s.tick := rfl

/-! ### Disarmed, and in the gap -/

theorem State.tick_disarmed (hfsm : s.engine.fsm = .disarmed) : s.tick = s := by
  simp only [State.tick, hfsm]

/-- In the gap under `FIRST_ONE` (R122). -/
theorem State.tick_firstOne (hfsm : s.engine.fsm = .gap) (hcount : s.countsGap = false) :
    s.tick =
      { s with
        engine := { s.engine with
          fsm := if s.engine.ph = false ∧ s.pins.dataIn = true then .xfer else .gap
          clkOut := s.engine.ph
          ph := !s.engine.ph } } := by
  rcases s.tick_spec with ⟨hf, -⟩ | ⟨-, -, h⟩ | ⟨-, hc, -⟩ | ⟨-, hc, -⟩ | ⟨hf, -⟩
  case inr.inl =>
    rw [h, State.gapFirstOne_spec]
    simp [State.togglePhase, State.strobeClock, State.withEngine, hfsm]
  all_goals simp_all

/-- In a counted gap that is not over (R121). -/
theorem State.tick_gapCount (hfsm : s.engine.fsm = .gap) (hcount : s.countsGap = true) (hgap : s.engine.gapCnt ≠ 0#24) :
    s.tick =
      { s with
        engine := { s.engine with
          gapCnt := s.engine.gapCnt - 1#24
          dataOut := if s.engine.cfg.getLsbD 0 = true then s.engine.dataOut else !s.engine.dataOut
          clkOut := s.engine.ph
          ph := !s.engine.ph } } := by
  rcases s.tick_spec with ⟨hf, -⟩ | ⟨-, hc, -⟩ | ⟨-, -, -, h⟩ | ⟨-, -, hg, -⟩ | ⟨hf, -⟩
  case inr.inr.inl =>
    rw [h, State.gapCount_spec]
    rfl
  all_goals simp_all

/-- A tick that finds the counter of the gap at 0 is already a Transferring tick (R120). -/
theorem State.tick_gapEnd (hfsm : s.engine.fsm = .gap) (hcount : s.countsGap = true) (hgap : s.engine.gapCnt = 0#24) :
    s.tick = (s.setFsm .xfer).tick := by
  rcases s.tick_spec with ⟨hf, -⟩ | ⟨-, hc, -⟩ | ⟨-, -, hg, -⟩ | ⟨-, -, -, h⟩ | ⟨hf, -⟩
  case inr.inr.inr.inl =>
    rw [h]
    rfl
  all_goals simp_all

/-! ### Transferring -/

/-- The high phase, in either direction (R126). -/
theorem State.tick_xfer_high (hfsm : s.engine.fsm = .xfer) (hph : s.engine.ph = true) :
    s.tick = { s with engine := { s.engine with clkOut := true, ph := false } } := by
  rw [State.tick_high hfsm hph]
  simp [State.togglePhase, State.strobeClock, State.withEngine, hph]

/-- The low phase in EMIT direction. -/
theorem State.tick_emit (hfsm : s.engine.fsm = .xfer) (hph : s.engine.ph = false) (hdir : s.engine.cfg.getLsbD 0 = false) :
    s.tick = s.strobeClock.bitEmit.togglePhase := by
  rcases s.tick_spec with ⟨hf, -⟩ | ⟨hf, -⟩ | ⟨hf, -⟩ | ⟨hf, -⟩ | ⟨-, h⟩
  case inr.inr.inr.inr => rw [h, State.transfer_spec, if_pos (by simp [hph]), if_neg (by simpa using hdir)]
  all_goals simp [hfsm] at hf

theorem State.stepCursor_strobeClock (s : State) : s.strobeClock.stepCursor = s.stepCursor.withEngine s.strobeClock.engine :=
  s.stepCursor_withEngine _

/-- A bit that does not complete its byte (R124). -/
theorem State.tick_emit_bit (hfsm : s.engine.fsm = .xfer) (hph : s.engine.ph = false) (hdir : s.engine.cfg.getLsbD 0 = false)
    (hbits : s.engine.bitssent ≠ 7#3) :
    s.tick =
      { s with
        engine := { s.engine with
          dataOut := s.engine.curByte.getLsbD (widx s.engine.bitssent (s.engine.cfg.getLsbD 1))
          bitcnt := s.engine.bitcnt + 1#32
          bitssent := s.engine.bitssent + 1#3
          clkOut := false
          ph := true } } := by
  rw [State.tick_emit hfsm hph hdir, s.strobeClock.bitEmit_spec.trans (if_neg hbits)]
  simp [-BitVec.getLsbD_eq_getElem, State.togglePhase, State.strobeClock, State.withEngine, hph]

/-- The eighth bit of a byte (R123, R124). -/
theorem State.tick_emit_byte (hfsm : s.engine.fsm = .xfer) (hph : s.engine.ph = false) (hdir : s.engine.cfg.getLsbD 0 = false)
    (hbits : s.engine.bitssent = 7#3) :
    s.tick =
      { s.stepCursor with
        crc := { s.crc with
          value := if s.engine.cfg.getLsbD 4 = true then crcUpdate s.crc.value s.engine.curByte else s.crc.value }
        engine := { s.engine with
          dataOut := s.engine.curByte.getLsbD (widx s.engine.bitssent (s.engine.cfg.getLsbD 1))
          bitcnt := s.engine.bitcnt + 1#32
          bitssent := 0#3
          pos := s.engine.pos + 1#32
          curByte := s.store.ram.read s.cursorAddr
          clkOut := false
          ph := true } } := by
  rw [State.tick_emit hfsm hph hdir, s.strobeClock.bitEmit_spec.trans (if_pos hbits), State.stepCursor_strobeClock]
  simp [-BitVec.getLsbD_eq_getElem, State.togglePhase, State.strobeClock, State.withEngine, hph]

/-- `cur_byte` with the level of `P_DATA_IN` put into the bit of the present bit-cell (R125). -/
def State.sampledByte (s : State) : Byte :=
  setBit s.engine.curByte (widx s.engine.bitssent (s.engine.cfg.getLsbD 2)) s.pins.dataIn

theorem State.getLsbD_sampledByte (s : State) {k : Nat} (hk : k < 8) :
    s.sampledByte.getLsbD k =
      if k = widx s.engine.bitssent (s.engine.cfg.getLsbD 2) then s.pins.dataIn else s.engine.curByte.getLsbD k :=
  getLsbD_setBit _ _ _ _ (widx_lt _ _) hk

/-- A sampled bit that does not complete its byte (R125). -/
theorem State.tick_capture_bit (hfsm : s.engine.fsm = .xfer) (hph : s.engine.ph = false)
    (hdir : s.engine.cfg.getLsbD 0 = true) (hbits : s.engine.bitssent ≠ 7#3) :
    s.tick =
      { s with
        engine := { s.engine with
          curByte := s.sampledByte
          bitcnt := s.engine.bitcnt + 1#32
          bitssent := s.engine.bitssent + 1#3
          clkOut := false
          ph := true } } := by
  rw [State.tick_capture hfsm hph hdir, s.strobeClock.bitCapture_spec.trans (if_neg hbits)]
  simp [-BitVec.getLsbD_eq_getElem, State.togglePhase, State.strobeClock, State.withEngine, State.sampledByte, hph]

/-- The eighth bit of a byte (R123, R125). -/
theorem State.tick_capture_byte (hfsm : s.engine.fsm = .xfer) (hph : s.engine.ph = false)
    (hdir : s.engine.cfg.getLsbD 0 = true) (hbits : s.engine.bitssent = 7#3) :
    s.tick =
      { s.stepCursor with
        store := { s.stepCursor.store with ram := s.store.ram.write s.cursorAddr s.sampledByte }
        crc := { s.crc with
          value := if s.engine.cfg.getLsbD 4 = true then crcUpdate s.crc.value s.sampledByte else s.crc.value }
        engine := { s.engine with
          bitcnt := s.engine.bitcnt + 1#32
          bitssent := 0#3
          pos := s.engine.pos + 1#32
          curByte := 0#8
          clkOut := false
          ph := true } } := by
  rw [State.tick_capture hfsm hph hdir, s.strobeClock.bitCapture_spec.trans (if_pos hbits), State.stepCursor_strobeClock]
  simp [-BitVec.getLsbD_eq_getElem, State.togglePhase, State.strobeClock, State.withEngine, State.sampledByte, hph]

/-! ### The statements about one tick -/

/-- Settles O37. -/
theorem ticksWithoutDataAction : Obligations.TicksWithoutDataAction :=
  ⟨fun _ hfsm => congrArg Host.Outcome.next (State.tick_disarmed hfsm),
    fun _ hfsm hph => congrArg Host.Outcome.next (State.tick_xfer_high hfsm hph)⟩

/-- Settles O38, by the three kinds of a gap tick. -/
theorem gapTicks : Obligations.GapTicks :=
  ⟨fun _ hfsm hcount hgap => congrArg Host.Outcome.next (State.tick_gapCount hfsm hcount hgap),
    fun _ hfsm hcount hgap => congrArg Host.Outcome.next (State.tick_gapEnd hfsm hcount hgap),
    fun _ hfsm hcount => congrArg Host.Outcome.next (State.tick_firstOne hfsm hcount)⟩

/-- Settles O39. -/
theorem emitTickDrivesOneBit : Obligations.EmitTickDrivesOneBit := by
  intro s hfsm hph hdir
  refine ⟨fun hbits => congrArg Host.Outcome.next (State.tick_emit_bit hfsm hph hdir hbits), fun hbits => ?_⟩
  rw [exec_tick, State.tick_emit_byte hfsm hph hdir hbits, hbits]
  rfl

/-- Settles O40: the byte in question is `sampledByte`. -/
theorem captureTickSamplesOneBit : Obligations.CaptureTickSamplesOneBit := by
  intro s hfsm hph hdir
  refine ⟨fun hbits => ?bit, fun hbits => ?byte⟩
  case bit =>
    exact ⟨s.sampledByte, congrArg Host.Outcome.next (State.tick_capture_bit hfsm hph hdir hbits),
      fun k => s.getLsbD_sampledByte⟩
  case byte =>
    refine ⟨s.sampledByte, _, congrArg Host.Outcome.next (State.tick_capture_byte hfsm hph hdir hbits), fun k hk => ?_,
      Memory.read_write_same .., fun a ha => Memory.read_write_other _ _ ha, rfl⟩
    rw [s.getLsbD_sampledByte hk, hbits]
    rfl

end Sys2Proof.Machine
end

section
/-! Starting and ending a session, acknowledging events, and the reads of the engine (R127, R128, R133 to R138). -/

namespace Sys2Proof.Machine

variable {s : State}

/-! ### Sessions -/

theorem exec_arm (h : s.engine.fsm = .disarmed) : exec .arm s = .next ((s.startSession.setFsm .gap).answered 0#32) :=
  if_neg (State.not_armed_of_fsm h)

theorem exec_arm_refused (h : s.engine.fsm ≠ .disarmed) : exec .arm s = .next s.turnedAway :=
  if_pos (s.armed_iff.mpr h)

theorem exec_disarm (h : s.engine.fsm ≠ .disarmed) : exec .disarm s = .next (s.endSession.answered 0#32) :=
  congrArg (fun t : State => Host.Outcome.next (t.answered 0#32)) (if_pos (s.armed_iff.mpr h))

theorem exec_disarm_disarmed (h : s.engine.fsm = .disarmed) : exec .disarm s = .next (s.answered 0#32) :=
  congrArg (fun t : State => Host.Outcome.next (t.answered 0#32)) (if_neg (State.not_armed_of_fsm h))

theorem exec_disarm_fsm {t : State} (h : exec .disarm s = .next t) : t.engine.fsm = .disarmed := by
  by_cases hd : s.engine.fsm = .disarmed
  · cases (exec_disarm_disarmed hd).symm.trans h
    exact hd
  · cases (exec_disarm hd).symm.trans h
    rw [State.endSession_spec]
    rfl

/-- Settles O31: `startSession_spec` says all that `ARM` writes but `fsm`. -/
theorem armStartsASession : Obligations.ArmStartsASession := by
  refine ⟨fun s hd => ?_, fun s => exec_arm_refused, spelledZ_of_decodeFormat rfl fun w hw => by simp [decodeFormat, hw]⟩
  rw [exec_arm hd, State.startSession_spec]
  rfl

/-- Settles O32: a tick after `DISARM` finds the engine disarmed. -/
theorem disarmEndsASession : Obligations.DisarmEndsASession := by
  refine ⟨fun s ha => ?_, fun s => exec_disarm_disarmed,
    fun s t h => congrArg Host.Outcome.next (State.tick_disarmed (exec_disarm_fsm h)),
    spelledZ_of_decodeFormat rfl fun w hw => by simp [decodeFormat, hw]⟩
  rw [exec_disarm ha, State.endSession_spec]
  rfl

/-! ### Acknowledging events -/

theorem exec_clrerr {m : Byte} (hm : m.toNat < 8) : exec (.clrerr m) s = .next ((s.acknowledge m).answered 0#32) :=
  if_neg (by rwa [clrerr_reserved_iff, not_not])

theorem exec_clrerr_refused {m : Byte} (hm : 8 ≤ m.toNat) : exec (.clrerr m) s = .next s.turnedAway :=
  if_pos ((clrerr_reserved_iff m).mpr hm.not_gt)

theorem Flags.clear_eq_ite (f : Flags) (m : Byte) :
    f.clear m =
      { underrun := if m.getLsbD 0 = true then false else f.underrun
        abort := if m.getLsbD 1 = true then false else f.abort
        cmderr := if m.getLsbD 2 = true then false else f.cmderr } := by
  have hbit : ∀ a b : Bool, (a && !b) = if b = true then false else a := by decide
  simp only [Flags.clear, hbit]

/-- Settles O36. -/
theorem clrerrClearsSelectedFlags : Obligations.ClrerrClearsSelectedFlags := by
  refine ⟨fun s m hm => ?_, fun s m => exec_clrerr_refused, spelledC_clrerr⟩
  rw [exec_clrerr hm, State.acknowledge, Flags.clear_eq_ite]
  rfl

/-! ### Reads -/

theorem cfgWord_seed (s : State) : s.cfgWord.extractLsb' 16 16 = s.crc.seed := by
  unfold State.cfgWord
  repeat rw [BitVec.extractLsb'_append_eq_of_le (by decide)]
  exact BitVec.extractLsb'_eq_self

theorem cfgWord_side (s : State) : s.cfgWord.extractLsb' 8 8 = s.engine.side := by
  unfold State.cfgWord
  repeat rw [BitVec.extractLsb'_append_eq_of_le (by decide)]
  rw [BitVec.extractLsb'_append_eq_of_add_le (by decide)]
  exact BitVec.extractLsb'_eq_self

theorem cfgWord_zeros (s : State) : s.cfgWord.extractLsb' 5 3 = 0#3 := by
  unfold State.cfgWord
  rw [BitVec.extractLsb'_append_eq_of_le (by decide), BitVec.extractLsb'_append_eq_of_add_le (by decide)]
  exact BitVec.extractLsb'_eq_self

theorem cfgWord_cfg (s : State) : s.cfgWord.extractLsb' 0 5 = s.engine.cfg := by
  unfold State.cfgWord
  rw [BitVec.extractLsb'_append_eq_of_add_le (by decide)]
  exact BitVec.extractLsb'_eq_self

/-- Settles O35. -/
theorem readCommandsReturnTheirRegister : Obligations.ReadCommandsReturnTheirRegister := by
  refine ⟨fun s => ⟨rfl, rfl, rfl, rfl, rfl, s.cfgWord, rfl, cfgWord_seed s, cfgWord_side s, cfgWord_zeros s, cfgWord_cfg s⟩,
    rfl, ?rdcrc, ?rdpos, ?rdbits, ?rdgap, ?rdcfg, ?rdgaplen⟩
  all_goals exact spelledZ_of_decodeFormat rfl fun w hw => by simp [decodeFormat, hw]

end Sys2Proof.Machine
end

section
/-! What a low-phase Transferring tick does to the counters and to the engine port, in either direction; and the counters under
every step (R121, R128, R134). -/

namespace Sys2Proof.Machine

/-- `t` is `s` after a tick that moved one data bit, as far as the two directions agree (R123 to R125): the three counters, and an
access through the engine port with the eighth bit. -/
structure BitMoved (s t : State) : Prop where
  fsm : t.engine.fsm = .xfer
  cfg : t.engine.cfg = s.engine.cfg
  ph : t.engine.ph = true
  clkOut : t.engine.clkOut = false
  bitcnt : t.engine.bitcnt = s.engine.bitcnt + 1#32
  bitssent : t.engine.bitssent = s.engine.bitssent + 1#3
  pos : t.engine.pos = if s.engine.bitssent = 7#3 then s.engine.pos + 1#32 else s.engine.pos
  port : if s.engine.bitssent = 7#3
    then (∃ m, t.store = { s.stepCursor.store with ram := m }) ∧ t.flags = s.stepCursor.flags
    else t.store = s.store ∧ t.flags = s.flags

theorem State.tick_xfer_low {s : State} (hfsm : s.engine.fsm = .xfer) (hph : s.engine.ph = false) : BitMoved s s.tick := by
  by_cases hbits : s.engine.bitssent = 7#3
  · have hwrap : 0#3 = s.engine.bitssent + 1#3 := by rw [hbits]; rfl
    cases hdir : s.engine.cfg.getLsbD 0 with
    | false =>
      rw [State.tick_emit_byte hfsm hph hdir hbits]
      exact ⟨hfsm, rfl, rfl, rfl, rfl, hwrap, (if_pos hbits).symm, by rw [if_pos hbits]; exact ⟨⟨_, rfl⟩, rfl⟩⟩
    | true =>
      rw [State.tick_capture_byte hfsm hph hdir hbits]
      exact ⟨hfsm, rfl, rfl, rfl, rfl, hwrap, (if_pos hbits).symm, by rw [if_pos hbits]; exact ⟨⟨_, rfl⟩, rfl⟩⟩
  · cases hdir : s.engine.cfg.getLsbD 0 with
    | false =>
      rw [State.tick_emit_bit hfsm hph hdir hbits]
      exact ⟨hfsm, rfl, rfl, rfl, rfl, rfl, (if_neg hbits).symm, by rw [if_neg hbits]; exact ⟨rfl, rfl⟩⟩
    | true =>
      rw [State.tick_capture_bit hfsm hph hdir hbits]
      exact ⟨hfsm, rfl, rfl, rfl, rfl, rfl, (if_neg hbits).symm, by rw [if_neg hbits]; exact ⟨rfl, rfl⟩⟩

/-! ### The counters of a session agree -/

/-- `CountersAgree` reads five fields of the engine. -/
theorem CountersAgree.of_fields {s t : State} (hs : CountersAgree s) (hfsm : t.engine.fsm = s.engine.fsm)
    (hbits : t.engine.bitssent = s.engine.bitssent) (hbyte : t.engine.curByte = s.engine.curByte)
    (hpos : t.engine.pos = s.engine.pos) (hcnt : t.engine.bitcnt = s.engine.bitcnt) : CountersAgree t := by
  rwa [CountersAgree, hfsm, hbits, hbyte, hpos, hcnt]

theorem countersAgree_of_disarmed {s : State} (hfsm : s.engine.fsm = .disarmed) (hbits : s.engine.bitssent = 0#3)
    (hbyte : s.engine.curByte = 0#8) : CountersAgree s :=
  ⟨fun _ => ⟨hbits, hbyte⟩, fun hf => by simp [hfsm] at hf, fun hf => by simp [hfsm] at hf⟩

theorem countersAgree_of_xfer {s : State} (hfsm : s.engine.fsm = .xfer)
    (hsum : s.engine.bitcnt = 8#32 * s.engine.pos + s.engine.bitssent.setWidth 32) : CountersAgree s :=
  ⟨fun hf => by simp [hfsm] at hf, fun hf => by simp [hfsm] at hf, fun _ => hsum⟩

/-- With all three counters at 0 they agree, in the gap and in `XFER`. -/
theorem countersAgree_of_zero {s : State} (hfsm : s.engine.fsm ≠ .disarmed)
    (hzero : s.engine.bitssent = 0#3 ∧ s.engine.pos = 0#32 ∧ s.engine.bitcnt = 0#32) : CountersAgree s := by
  obtain ⟨hbits, hpos, hcnt⟩ := hzero
  exact ⟨fun hf => absurd hf hfsm, fun _ => ⟨hbits, hpos, hcnt⟩, fun _ => by rw [hbits, hpos, hcnt]; rfl⟩

/-- One bit more; with the eighth, one byte more and no bit over. -/
theorem BitMoved.countersAgree {s t : State} (h : BitMoved s t)
    (hsum : s.engine.bitcnt = 8#32 * s.engine.pos + s.engine.bitssent.setWidth 32) : CountersAgree t := by
  refine countersAgree_of_xfer h.fsm ?_
  rw [h.bitcnt, h.bitssent, h.pos, hsum]
  split
  next hbits =>
    rw [hbits]
    bv_omega
  next hbits => bv_omega

theorem State.tick_xfer_keeps_countersAgree {s : State} (hs : CountersAgree s) (hfsm : s.engine.fsm = .xfer) :
    CountersAgree s.tick := by
  cases hph : s.engine.ph with
  | false =>
    obtain ⟨-, -, hxfer⟩ := hs
    exact (State.tick_xfer_low hfsm hph).countersAgree (hxfer hfsm)
  | true =>
    rw [State.tick_xfer_high hfsm hph]
    exact hs.of_fields rfl rfl rfl rfl rfl

theorem State.tick_gap_keeps_countersAgree {s : State} (hs : CountersAgree s) (hfsm : s.engine.fsm = .gap) :
    CountersAgree s.tick := by
  have ⟨_, hgapZero, _⟩ := hs
  have hzero := hgapZero hfsm
  cases hcount : s.countsGap with
  | false =>
    rw [State.tick_firstOne hfsm hcount]
    refine countersAgree_of_zero ?_ hzero
    dsimp only
    split <;> simp
  | true =>
    by_cases hgap : s.engine.gapCnt = 0#24
    · rw [State.tick_gapEnd hfsm hcount hgap]
      exact State.tick_xfer_keeps_countersAgree (countersAgree_of_zero (by simp) hzero) rfl
    · rw [State.tick_gapCount hfsm hcount hgap]
      exact hs.of_fields rfl rfl rfl rfl rfl

theorem State.tick_keeps_countersAgree {s : State} (hs : CountersAgree s) : CountersAgree s.tick := by
  cases hfsm : s.engine.fsm with
  | disarmed => rwa [State.tick_disarmed hfsm]
  | gap => exact State.tick_gap_keeps_countersAgree hs hfsm
  | xfer => exact State.tick_xfer_keeps_countersAgree hs hfsm

theorem exec_keeps_countersAgree (i : Instr) (s t : State) (hs : CountersAgree s) (h : exec i s = .next t) :
    CountersAgree t := by
  cases exec_effect h with
  | tick => exact State.tick_keeps_countersAgree hs
  | arm _ =>
    rw [State.startSession_spec]
    exact countersAgree_of_zero (by simp) ⟨rfl, rfl, rfl⟩
  | disarm =>
    rw [State.endSession_spec]
    exact countersAgree_of_disarmed rfl rfl rfl
  | reset => exact countersAgree_of_disarmed rfl rfl rfl
  | push c => exact hs.of_fields (by simp) (by simp) (by simp) (by simp) (by simp)
  | pull v => exact hs.of_fields (by simp) (by simp) (by simp) (by simp) (by simp)
  | _ => exact hs

/-- Settles O49: `ARM` starts the counters at 0, a tick moves one bit at most, and `DISARM` and `RESET` empty the byte. -/
theorem stepKeepsCountersAgree : Obligations.StepKeepsCountersAgree :=
  step_keeps (fun _ _ _ he hs => hs.of_fields (by rw [he]) (by rw [he]) (by rw [he]) (by rw [he]) (by rw [he]))
    exec_keeps_countersAgree

end Sys2Proof.Machine
end

section
/-! Several ticks, and a counted gap from its first tick to its last (R121). -/

namespace Sys2Proof.Machine

theorem runTicks_eq_iterate (n : Nat) (s : State) : runTicks n s = .next (State.tick^[n] s) := by
  induction n generalizing s with
  | zero => rfl
  | succ n ih => exact (runOps_cons _ (exec_tick s)).trans (ih s.tick)

theorem decide_odd_succ (k : Nat) : decide ((k + 1) % 2 = 1) = !decide (k % 2 = 1) := by
  rcases Nat.mod_two_eq_zero_or_one k with h | h <;> simp [Nat.add_mod, h]

/-- `s` after `k` ticks of a counted gap: the counter down by `k`, the phase turned `k` times, and so the data line when emitting;
the clock line shows the phase of the last of them. -/
def State.afterGapTicks (s : State) (k : Nat) : State :=
  { s with
    engine := { s.engine with
      gapCnt := s.engine.gapCnt - BitVec.ofNat 24 k
      ph := s.engine.ph ^^ decide (k % 2 = 1)
      dataOut := s.engine.dataOut ^^ (decide (k % 2 = 1) && !s.engine.cfg.getLsbD 0)
      clkOut := if k = 0 then s.engine.clkOut else !(s.engine.ph ^^ decide (k % 2 = 1)) } }

theorem State.afterGapTicks_zero (s : State) : s.afterGapTicks 0 = s := by
  simp [State.afterGapTicks]

section
variable {s : State} (hfsm : s.engine.fsm = .gap) (hcount : s.countsGap = true)
include hfsm hcount

theorem State.tick_afterGapTicks {k : Nat} (hk : k < s.engine.gapCnt.toNat) :
    (s.afterGapTicks k).tick = s.afterGapTicks (k + 1) := by
  have hgap : s.engine.gapCnt - BitVec.ofNat 24 k ≠ 0#24 := by bv_omega
  have hline : ∀ capture level odd : Bool,
      (if capture = true then level ^^ (odd && !capture) else !(level ^^ (odd && !capture))) = (level ^^ (!odd && !capture)) := by
    decide
  rw [State.tick_gapCount (s := s.afterGapTicks k) hfsm hcount hgap]
  unfold State.afterGapTicks
  dsimp only
  congr 2
  · simp [decide_odd_succ]
  · bv_omega
  · rw [decide_odd_succ]
    exact hline _ _ _
  · simp [decide_odd_succ]

theorem State.iterate_tick_of_le_gap {n : Nat} (hn : n ≤ s.engine.gapCnt.toNat) :
    State.tick^[n] s = s.afterGapTicks n := by
  induction n with
  | zero => exact s.afterGapTicks_zero.symm
  | succ n ih => rw [Function.iterate_succ_apply', ih (by omega), State.tick_afterGapTicks hfsm hcount hn]

/-- The first tick after a gap of `s.engine.gapCnt` ticks is already a Transferring tick (R120). -/
theorem State.tick_afterGap :
    (s.afterGapTicks s.engine.gapCnt.toNat).tick = ((s.afterGapTicks s.engine.gapCnt.toNat).setFsm .xfer).tick := by
  refine State.tick_gapEnd hfsm hcount ?_
  change s.engine.gapCnt - BitVec.ofNat 24 s.engine.gapCnt.toNat = 0#24
  rw [BitVec.ofNat_toNat, BitVec.setWidth_eq, BitVec.sub_self]

/-- After its gap a session runs on as if it had been at `XFER` since the last gap tick. -/
theorem State.iterate_tick_after_gap (k : Nat) :
    State.tick^[s.engine.gapCnt.toNat + (k + 1)] s =
      State.tick^[k + 1] ((s.afterGapTicks s.engine.gapCnt.toNat).setFsm .xfer) := by
  rw [Nat.add_comm, Function.iterate_add_apply, State.iterate_tick_of_le_gap hfsm hcount le_rfl, Function.iterate_succ_apply,
    State.tick_afterGap hfsm hcount, ← Function.iterate_succ_apply]

end

/-- A tick never leaves `XFER` (R116). -/
theorem State.tick_fsm_of_xfer {s : State} (hfsm : s.engine.fsm = .xfer) : s.tick.engine.fsm = .xfer := by
  obtain hsame | ⟨hgap, -⟩ := s.tick_fsm
  · exact hsame.trans hfsm
  · simp [hfsm] at hgap

/-- Settles O42: after `n` ticks the session is at `afterGapTicks n`. -/
theorem gapLastsExactlyItsTicks : Obligations.GapLastsExactlyItsTicks := by
  intro s n hfsm hcount hn
  refine ⟨s.afterGapTicks n, ?run, hfsm, ?counter, rfl, rfl, rfl, rfl, rfl, rfl, rfl, rfl, rfl, ?last⟩
  case run => rw [runTicks_eq_iterate, State.iterate_tick_of_le_gap hfsm hcount hn]
  case counter =>
    change (s.engine.gapCnt - BitVec.ofNat 24 n).toNat = s.engine.gapCnt.toNat - n
    bv_omega
  case last =>
    rintro rfl
    refine ⟨_, exec_tick _, ?_⟩
    rw [State.tick_afterGap hfsm hcount]
    exact State.tick_fsm_of_xfer rfl

end Sys2Proof.Machine
end

section
/-! A session with a counted gap from its `ARM` on, in either direction: its counters, its lines and its accesses (R139, R140). -/

namespace Sys2Proof.Machine

/-! ### The accesses made -/

/-- `p` accesses have been made since buffer 0, index 0, with no `CONSUME`; `u` is what `underrun` was at the start (R102). -/
structure PortAfter (u : Bool) (p : Nat) (s : State) : Prop where
  cursor : CursorAfter p s
  refill : s.store.refill = requestAfter p
  underrun : s.flags.underrun = (u || decide (512 ≤ p))

section
variable {u : Bool} {p : Nat} {s t : State}

/-- The three facts read only the store and the flags. -/
theorem PortAfter.of_parts (h : PortAfter u p s) (hstore : t.store = s.store) (hflags : t.flags = s.flags) :
    PortAfter u p t :=
  ⟨⟨by rw [hstore, h.cursor.cur], by rw [hstore, h.cursor.sel]⟩, by rw [hstore, h.refill], by rw [hflags, h.underrun]⟩

/-- One access more. The engine port works armed as it does for the host disarmed, so this is a step of `Unattended`. -/
theorem PortAfter.access (h : PortAfter u p s) {m : Memory} (hstore : t.store = { s.stepCursor.store with ram := m })
    (hflags : t.flags = s.stepCursor.flags) : PortAfter u (p + 1) t := by
  have hdisarmed : Unattended u p (s.setFsm .disarmed) :=
    ⟨rfl, ⟨h.cursor.cur, h.cursor.sel⟩, h.refill, h.underrun⟩
  have hstep : (s.setFsm .disarmed).stepCursor = s.stepCursor.withEngine (s.setFsm .disarmed).engine :=
    s.stepCursor_withEngine _
  have hnext := hdisarmed.accessed m 0#32
  rw [State.accessed, hstep] at hnext
  exact PortAfter.of_parts ⟨hnext.cursor, hnext.refill, hnext.underrun⟩ hstore hflags

theorem CursorAfter.cursorAddr (h : CursorAfter p s) : s.cursorAddr = p % 512 := by
  rw [← ramAddr_cursor, h.cur, h.sel, ramAddr, requestedBuffer_index, Config.bufferSize, BitVec.toNat_ofNat]
  omega

end

/-! ### The ticks after the gap -/

/-- A session at `XFER`: `n` ticks after its `ARM`, with `m` data bits moved and `p₀` accesses made by the `ARM`; `c` is its
configuration and `u` what `underrun` was at the start. -/
structure SessionAt (c : BitVec 5) (u : Bool) (p₀ n m : Nat) (t : State) : Prop where
  fsm : t.engine.fsm = .xfer
  cfg : t.engine.cfg = c
  ph : t.engine.ph = decide (n % 2 = 1)
  clkOut : t.engine.clkOut = (decide (0 < n) && decide (n % 2 = 0))
  bitssent : t.engine.bitssent = BitVec.ofNat 3 m
  pos : t.engine.pos = BitVec.ofNat 32 (m / 8)
  bitcnt : t.engine.bitcnt = BitVec.ofNat 32 m
  port : PortAfter u (m / 8 + p₀) t

theorem ofNat_eq_seven_iff (m : Nat) : BitVec.ofNat 3 m = 7#3 ↔ m % 8 = 7 := by
  rw [BitVec.toNat_eq, BitVec.toNat_ofNat]
  rfl

section
variable {c : BitVec 5} {u : Bool} {p₀ n m : Nat} {t : State}

theorem SessionAt.tick_high (h : SessionAt c u p₀ n m t) (hn : n % 2 = 1) : SessionAt c u p₀ (n + 1) m t.tick := by
  have hph : t.engine.ph = true := by rw [h.ph, hn]; rfl
  have hnext : (n + 1) % 2 = 0 := by omega
  rw [State.tick_xfer_high h.fsm hph]
  exact ⟨h.fsm, h.cfg, by simp [hnext], by simp [hnext], h.bitssent, h.pos, h.bitcnt, h.port.of_parts rfl rfl⟩

theorem SessionAt.tick_low (h : SessionAt c u p₀ n m t) (hn : n % 2 = 0) : SessionAt c u p₀ (n + 1) (m + 1) t.tick := by
  have hph : t.engine.ph = false := by simp [h.ph, hn]
  have hnext : (n + 1) % 2 = 1 := by omega
  have hmoved := State.tick_xfer_low h.fsm hph
  have hlast : t.engine.bitssent = 7#3 ↔ m % 8 = 7 := by rw [h.bitssent, ofNat_eq_seven_iff]
  have hport := hmoved.port
  refine ⟨hmoved.fsm, hmoved.cfg.trans h.cfg, by simp [hmoved.ph, hnext], by simp [hmoved.clkOut, hnext], ?bitssent, ?pos,
    ?bitcnt, ?port⟩
  case bitssent => rw [hmoved.bitssent, h.bitssent, BitVec.ofNat_add]
  case bitcnt => rw [hmoved.bitcnt, h.bitcnt, BitVec.ofNat_add]
  case pos =>
    rw [hmoved.pos, h.pos]
    split
    next hbits =>
      have hbyte : (m + 1) / 8 = m / 8 + 1 := by have := hlast.mp hbits; omega
      rw [hbyte, BitVec.ofNat_add]
    next hbits =>
      have hbyte : (m + 1) / 8 = m / 8 := by have := hlast.not.mp hbits; omega
      rw [hbyte]
  case port =>
    split at hport
    next hbits =>
      have hbyte : (m + 1) / 8 + p₀ = m / 8 + p₀ + 1 := by have := hlast.mp hbits; omega
      obtain ⟨⟨ram, hstore⟩, hflags⟩ := hport
      rw [hbyte]
      exact h.port.access hstore hflags
    next hbits =>
      have hbyte : (m + 1) / 8 = m / 8 := by have := hlast.not.mp hbits; omega
      obtain ⟨hstore, hflags⟩ := hport
      rw [hbyte]
      exact h.port.of_parts hstore hflags

end

theorem bitsMoved_of_le {g n : Nat} (h : n ≤ g) : bitsMoved g n = 0 := by
  unfold bitsMoved
  omega

theorem bitsMoved_succ_low {g n : Nat} (h : g ≤ n) (hn : n % 2 = 0) : bitsMoved g (n + 1) = bitsMoved g n + 1 := by
  unfold bitsMoved
  omega

theorem bitsMoved_succ_high {g n : Nat} (hn : n % 2 = 1) : bitsMoved g (n + 1) = bitsMoved g n := by
  unfold bitsMoved
  omega

/-- An invariant of the ticks after a gap of `g` ticks, told by the number of ticks and of bits moved: a low-phase tick, one with an
even number of ticks before it, moves one bit, and a high-phase tick none (R126, R139). -/
theorem iterate_tick_keeps {P : Nat → Nat → State → Prop} {g : Nat} {s : State} (hs : P g 0 s)
    (hlow : ∀ n m t, n % 2 = 0 → P n m t → P (n + 1) (m + 1) t.tick)
    (hhigh : ∀ n m t, n % 2 = 1 → P n m t → P (n + 1) m t.tick) (k : Nat) :
    P (g + k) (bitsMoved g (g + k)) (State.tick^[k] s) := by
  induction k with
  | zero => rwa [Nat.add_zero, bitsMoved_of_le le_rfl]
  | succ k ih =>
    rw [Function.iterate_succ_apply', ← Nat.add_assoc]
    rcases Nat.mod_two_eq_zero_or_one (g + k) with hn | hn
    · rw [bitsMoved_succ_low (Nat.le_add_right g k) hn]
      exact hlow _ _ _ hn ih
    · rw [bitsMoved_succ_high hn]
      exact hhigh _ _ _ hn ih

/-! ### From `ARM` on -/

/-- What `ARM` leaves (R127). -/
def State.started (s : State) : State := (s.startSession.setFsm .gap).answered 0#32

/-- The accesses that `ARM` makes: in EMIT direction it fetches the first byte (R127). -/
def State.armAccesses (s : State) : Nat := if s.engine.cfg.getLsbD 0 = true then 0 else 1

theorem State.started_engine (s : State) :
    s.started.engine =
      { s.engine with
        fsm := .gap, ph := false, bitssent := 0#3
        curByte := if s.engine.cfg.getLsbD 0 = true then 0#8 else s.store.ram.read 0
        gapCnt := s.engine.gapLen, pos := 0#32, bitcnt := 0#32, dataOut := false, clkOut := false } := by
  rw [State.started, State.startSession_spec]
  rfl

theorem State.started_store (s : State) :
    s.started.store =
      { s.store with sel := .buf0, cur := if s.engine.cfg.getLsbD 0 = true then 0#8 else 1#8, refill := none } := by
  rw [State.started, State.startSession_spec]
  rfl

theorem State.started_flags (s : State) : s.started.flags = s.flags := by
  rw [State.started, State.startSession_spec]
  rfl

theorem State.started_port (s : State) : PortAfter s.flags.underrun s.armAccesses s.started := by
  unfold State.armAccesses
  cases hdir : s.engine.cfg.getLsbD 0 <;>
    exact ⟨⟨by simp [-BitVec.getLsbD_eq_getElem, State.started_store, hdir], by rw [State.started_store]; rfl⟩,
      by rw [State.started_store]; rfl, by simp [State.started_flags]⟩

section
variable {s : State} (hcount : s.countsGap = true)
include hcount

theorem State.started_countsGap : s.started.countsGap = true := by
  simpa [State.countsGap, State.started_engine] using hcount

/-- Where the session stands after `n` ticks: in the gap, or some ticks beyond its end, from where on the invariants of `XFER` hold. -/
theorem State.iterate_tick_started (n : Nat) :
    (n ≤ s.engine.gapLen.toNat ∧ State.tick^[n] s.started = s.started.afterGapTicks n) ∨
    (s.engine.gapLen.toNat < n ∧ ∃ k, n = s.engine.gapLen.toNat + k ∧
      State.tick^[n] s.started = State.tick^[k] ((s.started.afterGapTicks s.engine.gapLen.toNat).setFsm .xfer)) := by
  have hfsm : s.started.engine.fsm = .gap := by rw [State.started_engine]
  have hgap : s.started.engine.gapCnt = s.engine.gapLen := by rw [State.started_engine]
  have hcounts := State.started_countsGap hcount
  rw [← hgap]
  rcases Nat.lt_or_ge s.started.engine.gapCnt.toNat n with hn | hn
  · obtain ⟨k, rfl⟩ := Nat.exists_eq_add_of_lt hn
    exact .inr ⟨hn, k + 1, Nat.add_assoc .., State.iterate_tick_after_gap hfsm hcounts k⟩
  · exact .inl ⟨hn, State.iterate_tick_of_le_gap hfsm hcounts hn⟩

end

/-- A session at the end of its gap has moved no bit. -/
theorem State.started_sessionAt (s : State) (g : Nat) :
    SessionAt s.engine.cfg s.flags.underrun s.armAccesses g 0 ((s.started.afterGapTicks g).setFsm .xfer) where
  fsm := rfl
  cfg := by simp [State.afterGapTicks, State.started_engine]
  ph := by simp [State.afterGapTicks, State.started_engine]
  clkOut := by
    rcases Nat.mod_two_eq_zero_or_one g with hg | hg <;>
      simp [State.afterGapTicks, State.started_engine, hg, Nat.pos_iff_ne_zero]
  bitssent := by simp [State.afterGapTicks, State.started_engine]
  pos := by simp [State.afterGapTicks, State.started_engine]
  bitcnt := by simp [State.afterGapTicks, State.started_engine]
  port := by
    rw [Nat.zero_div, Nat.zero_add]
    exact s.started_port.of_parts rfl rfl

/-- Settles O44: the accesses are those of `ARM` and one per byte. -/
theorem refillRequestsOfASession : Obligations.RefillRequestsOfASession := by
  intro s n hd hcount
  refine ⟨s.started, State.tick^[n] s.started, exec_arm hd, runTicks_eq_iterate _ _, ?_⟩
  have hport : PortAfter s.flags.underrun (bitsMoved s.engine.gapLen.toNat n / 8 + s.armAccesses)
      (State.tick^[n] s.started) := by
    rcases State.iterate_tick_started hcount n with ⟨hn, hgap⟩ | ⟨-, k, rfl, hxfer⟩
    · rw [hgap, bitsMoved_of_le hn, Nat.zero_div, Nat.zero_add]
      exact s.started_port.of_parts rfl rfl
    · rw [hxfer]
      have hat := iterate_tick_keeps (s.started_sessionAt s.engine.gapLen.toNat) (fun n m t hn h => h.tick_low hn)
        (fun n m t hn h => h.tick_high hn) k
      exact hat.port
  refine ⟨?_, ?_, hport.refill, hport.underrun⟩
  · rw [hport.cursor.cur, BitVec.toNat_ofNat]
    rfl
  · rw [hport.cursor.sel, requestedBuffer_index]
    rfl

end Sys2Proof.Machine
end

section
/-! The waveform of an EMIT session (R139). -/

namespace Sys2Proof.Machine

/-- Byte `j` of an EMIT session: the buffers in turn, from buffer 0, index 0. -/
def State.sessionByte (s : State) (j : Nat) : Byte := s.store.ram.read (j % 512)

/-- The data line after `m` bits, if the gap left it at `level`: the last of the bits. -/
def State.lineAfter (s : State) (level : Bool) (m : Nat) : Bool :=
  if m = 0 then level
  else (s.sessionByte ((m - 1) / 8)).getLsbD (if s.engine.cfg.getLsbD 1 = true then 7 - (m - 1) % 8 else (m - 1) % 8)

theorem State.lineAfter_succ (s : State) (level : Bool) (m : Nat) :
    s.lineAfter level (m + 1) = (s.sessionByte (m / 8)).getLsbD (widx (BitVec.ofNat 3 m) (s.engine.cfg.getLsbD 1)) := rfl

/-- `t`, in a session that `s` has armed, has driven `m` bits: the byte in flight and the line. Emitting leaves the RAM alone. -/
structure HasEmitted (s : State) (level : Bool) (m : Nat) (t : State) : Prop where
  ram : t.store.ram = s.store.ram
  curByte : t.engine.curByte = s.sessionByte (m / 8)
  dataOut : t.engine.dataOut = s.lineAfter level m

section
variable {s t : State} {u level : Bool} {n m : Nat}

theorem HasEmitted.tick_high (h : HasEmitted s level m t) (hat : SessionAt s.engine.cfg u 1 n m t) (hn : n % 2 = 1) :
    HasEmitted s level m t.tick := by
  rw [State.tick_xfer_high hat.fsm (by rw [hat.ph, hn]; rfl)]
  exact ⟨h.ram, h.curByte, h.dataOut⟩

/-- The bit that a low-phase tick drives is bit `m`; with bit 7 of a byte the engine goes on to the byte under the cursor, which is
one byte ahead. -/
theorem HasEmitted.tick_low (h : HasEmitted s level m t) (hat : SessionAt s.engine.cfg u 1 n m t)
    (hdir : s.engine.cfg.getLsbD 0 = false) (hn : n % 2 = 0) : HasEmitted s level (m + 1) t.tick := by
  have hph : t.engine.ph = false := by simp [hat.ph, hn]
  have hemit : t.engine.cfg.getLsbD 0 = false := by rw [hat.cfg, hdir]
  have hlast : t.engine.bitssent = 7#3 ↔ m % 8 = 7 := by rw [hat.bitssent, ofNat_eq_seven_iff]
  have hline : t.engine.curByte.getLsbD (widx t.engine.bitssent (t.engine.cfg.getLsbD 1)) = s.lineAfter level (m + 1) := by
    rw [State.lineAfter_succ, h.curByte, hat.bitssent, hat.cfg]
  by_cases hbits : t.engine.bitssent = 7#3
  · have hbyte : (m + 1) / 8 = m / 8 + 1 := by have := hlast.mp hbits; omega
    have hfetched : t.store.ram.read t.cursorAddr = s.sessionByte ((m + 1) / 8) := by
      rw [h.ram, hat.port.cursor.cursorAddr, hbyte]
      rfl
    rw [State.tick_emit_byte hat.fsm hph hemit hbits]
    exact ⟨t.stepCursor_ram.trans h.ram, hfetched, hline⟩
  · have hbyte : (m + 1) / 8 = m / 8 := by have := hlast.not.mp hbits; omega
    rw [State.tick_emit_bit hat.fsm hph hemit hbits]
    exact ⟨h.ram, by rw [hbyte]; exact h.curByte, hline⟩

end

section
variable {s : State} (hdir : s.engine.cfg.getLsbD 0 = false)
include hdir

theorem State.started_hasEmitted (g : Nat) :
    HasEmitted s (decide (g % 2 = 1)) 0 ((s.started.afterGapTicks g).setFsm .xfer) where
  ram := by simp [State.afterGapTicks, State.started_store]
  curByte := (congrArg Engine.curByte s.started_engine).trans (if_neg (by simp [-BitVec.getLsbD_eq_getElem, hdir]))
  dataOut := by
    simp [-BitVec.getLsbD_eq_getElem, State.afterGapTicks, State.started_engine, State.lineAfter, hdir]

/-- An EMIT session `k` ticks after its gap of `g` ticks. -/
theorem State.started_emits (g k : Nat) :
    SessionAt s.engine.cfg s.flags.underrun 1 (g + k) (bitsMoved g (g + k))
        (State.tick^[k] ((s.started.afterGapTicks g).setFsm .xfer)) ∧
      HasEmitted s (decide (g % 2 = 1)) (bitsMoved g (g + k))
        (State.tick^[k] ((s.started.afterGapTicks g).setFsm .xfer)) := by
  have harm : s.armAccesses = 1 := if_neg (by simp [-BitVec.getLsbD_eq_getElem, hdir])
  refine iterate_tick_keeps
    (P := fun n m t => SessionAt s.engine.cfg s.flags.underrun 1 n m t ∧ HasEmitted s (decide (g % 2 = 1)) m t)
    ⟨harm ▸ s.started_sessionAt g, State.started_hasEmitted hdir g⟩ ?low ?high k
  case low =>
    rintro n m t hn ⟨hat, hdata⟩
    exact ⟨hat.tick_low hn, hdata.tick_low hat hdir hn⟩
  case high =>
    rintro n m t hn ⟨hat, hdata⟩
    exact ⟨hat.tick_high hn, hdata.tick_high hat hn⟩

end

/-- The gap of an EMIT session: the lines and the phase. -/
theorem State.started_gap_lines {s : State} (hdir : s.engine.cfg.getLsbD 0 = false) (n : Nat) :
    (s.started.afterGapTicks n).engine.fsm = .gap ∧
      (s.started.afterGapTicks n).engine.ph = decide (n % 2 = 1) ∧
      (s.started.afterGapTicks n).engine.clkOut = (decide (0 < n) && decide (n % 2 = 0)) ∧
      (s.started.afterGapTicks n).engine.dataOut = decide (n % 2 = 1) := by
  have hat := s.started_sessionAt n
  have hdata := State.started_hasEmitted hdir n
  exact ⟨by simp [State.afterGapTicks, State.started_engine], hat.ph, hat.clkOut, hdata.dataOut⟩

/-- Settles O43: through the gap by `afterGapTicks`, and after it by the invariants of the ticks that move data. -/
theorem emitWaveform : Obligations.EmitWaveform := by
  intro s n hd hdir
  have hcount : s.countsGap = true := by simp [-BitVec.getLsbD_eq_getElem, State.countsGap, hdir]
  refine ⟨s.started, State.tick^[n] s.started, exec_arm hd, runTicks_eq_iterate _ _, ?_⟩
  rcases State.iterate_tick_started hcount n with ⟨hn, hgap⟩ | ⟨hn, k, rfl, hxfer⟩
  · obtain ⟨hfsm, hph, hclk, hdata⟩ := State.started_gap_lines hdir n
    rw [hgap]
    exact ⟨hph, hclk, fun _ => ⟨hfsm, hdata⟩, fun hlt => absurd hn hlt.not_ge⟩
  · obtain ⟨hat, hdata⟩ := State.started_emits hdir s.engine.gapLen.toNat k
    rw [hxfer]
    refine ⟨hat.ph, hat.clkOut, fun hle => absurd hn hle.not_gt,
      fun _ => ⟨hat.fsm, hdata.dataOut, ?_, hdata.curByte, hat.pos, hat.bitcnt⟩⟩
    rw [hat.bitssent, BitVec.toNat_ofNat]

end Sys2Proof.Machine
end

section
/-!
What falls between the host's commands: ticks and pin changes answer nothing, are never refused, and neither start nor end a session
(R46, R48, R152). So the next command finds the block as the host left it, as far as its legality goes.
-/

namespace Sys2Proof.Machine

/-! ### Waiting -/

/-- What ticks and pin changes leave as it was, of all that decides how a command is answered. -/
structure Waited (s t : State) : Prop where
  armed : t.armed = s.armed
  responses : t.responses = s.responses
  cmderr : t.flags.cmderr = s.flags.cmderr

theorem Waited.refl (s : State) : Waited s s := ⟨rfl, rfl, rfl⟩

theorem Waited.trans {s t u : State} (h : Waited s t) (h' : Waited t u) : Waited s u :=
  ⟨h'.armed.trans h.armed, h'.responses.trans h.responses, h'.cmderr.trans h.cmderr⟩

/-- A tick can end the gap, and that is not the end of the session (R116). -/
theorem State.tick_waited (s : State) : Waited s s.tick where
  armed := by
    obtain hsame | ⟨hgap, hxfer⟩ := s.tick_fsm
    · rw [State.armed, State.armed, hsame]
    · rw [State.armed, State.armed, hgap, hxfer]
      rfl
  responses := s.tick_keepsPorts.1
  cmderr := by
    obtain hflags | hflags := s.tick_portUse.flags <;> rw [hflags]
    rfl

/-- A tick or a pin change is one step. -/
theorem step_quiet {s : State} {e : EnvStep} {rest : List EnvStep} (hin : s.inputs = e :: rest) (hquiet : e.quiet = true) :
    ∃ t, step s = .next t ∧ Waited s t ∧ t.inputs = rest := by
  cases e with
  | pins p => exact ⟨_, step_pins hin, ⟨rfl, rfl, rfl⟩, rfl⟩
  | present p =>
    obtain ⟨rst, tick, cmd⟩ := p
    obtain ⟨rfl, rfl⟩ : rst = false ∧ cmd = none := by simpa [EnvStep.quiet] using hquiet
    cases tick with
    | false => exact ⟨_, step_emptyInstant hin, ⟨rfl, rfl, rfl⟩, rfl⟩
    | true =>
      have hports := (s.withInputs rest).tick_keepsPorts
      have hwaited := (s.withInputs rest).tick_waited
      exact ⟨_, step_tick hin rfl rfl, ⟨hwaited.armed, hwaited.responses, hwaited.cmderr⟩, hports.2.1⟩

theorem settle_quiet {es : List EnvStep} (hquiet : ∀ e ∈ es, e.quiet = true) (n : Nat) {s : State} {rest : List EnvStep}
    (hin : s.inputs = es ++ rest) :
    ∃ t, settle (es.length + n) s = settle n t ∧ Waited s t ∧ t.inputs = rest := by
  induction es generalizing s with
  | nil => exact ⟨s, by simp, .refl s, hin⟩
  | cons e es ih =>
    obtain ⟨t, hstep, hwaited, ht⟩ := step_quiet hin (hquiet e List.mem_cons_self)
    obtain ⟨u, hu, hwaited', hrest⟩ := ih (fun e he => hquiet e (List.mem_cons_of_mem _ he)) ht
    refine ⟨u, ?_, hwaited.trans hwaited', hrest⟩
    rw [List.length_cons, Nat.add_right_comm, settle_succ _ hstep, hu]

/-! ### Issuing a command -/

theorem exists_encode_eq_word {i : Instr} (hcmd : isEvent i = false) : ∃ w, encode i = .word w := by
  cases i with
  | tick => cases hcmd
  | reset => cases hcmd
  | _ => exact ⟨_, rfl⟩

theorem exec_command_inputs {i : Instr} {s t : State} (hcmd : isEvent i = false) (h : exec i s = .next t) :
    t.inputs = s.inputs := by
  obtain ⟨-, -, -, hin, -⟩ := (exec_answers i s hcmd).response h
  exact hin

/-- Only ticks and pin changes fall between the commands to come, and nothing is left on the ports. -/
def HostAgent.Quiet (h : HostAgent) : Prop :=
  (∀ es ∈ h.between, ∀ e ∈ es, e.quiet = true) ∧ h.machine.inputs = []

/-- What falls before a command is over before the command runs. -/
theorem HostAgent.Quiet.issue {h : HostAgent} (hq : h.Quiet) {i : Instr} (hcmd : isEvent i = false) (hwf : i.wf = true) :
    ∃ u t, Waited h.machine u ∧ exec i u = .next t ∧ t.inputs = [] ∧
      h.issue i = (t.responses.headD { err := true, data := 0#32 }, { h with machine := t, between := h.between.tail }) := by
  obtain ⟨hbetween, hin⟩ := hq
  obtain ⟨w, hw⟩ := exists_encode_eq_word hcmd
  have hquiet : ∀ e ∈ h.between.headD [], e.quiet = true := by
    cases hb : h.between with
    | nil => simp
    | cons es ess => exact hbetween es (hb ▸ List.mem_cons_self)
  obtain ⟨u, hu, hwaited, hrest⟩ := settle_quiet hquiet ((h.between.headD []).length + 1 + 1)
    (s := h.machine.withInputs (h.between.headD [] ++ [.present (Presented.command w)])) rfl
  obtain ⟨t, ht⟩ := (exec_answers i (u.withInputs []) hcmd).next
  have hstep : step u = .next t :=
    (step_command hrest (hw ▸ (decode_eq_some_iff _ i).mpr ⟨hwf, rfl⟩)).trans ht
  have htin : t.inputs = [] := exec_command_inputs hcmd ht
  refine ⟨u.withInputs [], t, ⟨hwaited.armed, hwaited.responses, hwaited.cmderr⟩, ht, htin, ?_⟩
  have hlen : 2 * ((h.between.headD []).length + 1) = (h.between.headD []).length + ((h.between.headD []).length + 1 + 1) := by
    omega
  have hsettle : settle (2 * ((h.between.headD []).length + 1))
      (h.machine.withInputs (h.between.headD [] ++ [.present (Presented.command w)])) = t := by
    rw [hlen, hu, settle_succ _ hstep, settle_idle _ _ htin]
  simp only [HostAgent.issue, hin, hw, Presented.ofEncoded, List.nil_append, List.length_append, List.length_singleton, hsettle]

/-! ### Accepted commands -/

/-- `i` is accepted in `u` without touching `cmderr`, and a session runs afterwards exactly if `armed`. -/
def AcceptedIn (armed : Bool) (i : Instr) (u : State) : Prop :=
  ∃ t v, exec i u = .next t ∧ t.responses = { err := false, data := v } :: u.responses ∧ t.flags.cmderr = u.flags.cmderr ∧
    t.armed = armed

theorem acceptedIn_poll (u : State) : AcceptedIn u.armed .poll u := ⟨_, _, exec_poll u, rfl, rfl, rfl⟩

theorem acceptedIn_rdstatus (u : State) : AcceptedIn u.armed .rdstatus u := ⟨_, _, rfl, rfl, rfl, rfl⟩

theorem acceptedIn_consume (u : State) : AcceptedIn u.armed .consume u := ⟨_, _, exec_consume u, rfl, rfl, rfl⟩

theorem exec_setOut (o : OutSig) (v : Bool) (u : State) :
    exec (.setsig (BitVec.ofNat 8 o.id) (if v then 1#8 else 0#8)) u =
      .next ((u.withSignals (u.signals.setOut o v)).answered 0#32) :=
  exec_setsig (by cases o <;> rfl) (by cases v <;> rfl)

theorem acceptedIn_setOut (o : OutSig) (v : Bool) (u : State) :
    AcceptedIn u.armed (.setsig (BitVec.ofNat 8 o.id) (if v then 1#8 else 0#8)) u :=
  ⟨_, _, exec_setOut o v u, rfl, rfl, rfl⟩

theorem acceptedIn_bufwr (b : BufId) (k c : Byte) (u : State) : AcceptedIn u.armed (.bufwr b.toByte k c) u :=
  ⟨_, _, exec_bufwr k c b.toNat_toByte, rfl, rfl, rfl⟩

theorem acceptedIn_bufrd (b : BufId) (k : Byte) (u : State) : AcceptedIn u.armed (.bufrd b.toByte k) u :=
  ⟨_, _, exec_bufrd k b.toNat_toByte, rfl, rfl, rfl⟩

/-- `ARM` is legal while disarmed only (R127). -/
theorem acceptedIn_arm {u : State} (h : u.armed = false) : AcceptedIn true .arm u :=
  ⟨u.started, 0#32, exec_arm (State.fsm_of_not_armed (by simp [h])),
    by simp [State.started, State.answered, State.startSession_spec], congrArg Flags.cmderr u.started_flags, rfl⟩

/-- `DISARM` is legal in every state (R128). -/
theorem acceptedIn_disarm (u : State) : AcceptedIn false .disarm u := by
  by_cases hd : u.engine.fsm = .disarmed
  · exact ⟨_, _, exec_disarm_disarmed hd, rfl, rfl, by simp [State.armed, State.answered, hd]⟩
  · refine ⟨u.endSession.answered 0#32, 0#32, exec_disarm hd, ?_⟩
    simp [State.armed, State.answered, State.endSession_spec]

/-! ### Calls without a refusal -/

/-- `h` has come to `g` by at least `n` commands, none of them refused, and a session runs in `g` exactly if `armed`. -/
structure HostAgent.Served (armed : Bool) (n : Nat) (h g : HostAgent) : Prop where
  quiet : g.Quiet
  answers : ∃ rs : List Response,
    g.machine.responses = rs ++ h.machine.responses ∧ n ≤ rs.length ∧ ∀ r ∈ rs, r.err = false
  cmderr : g.machine.flags.cmderr = h.machine.flags.cmderr
  armed : g.machine.armed = armed

section
variable {h g k : HostAgent} {a b : Bool} {m n : Nat}

theorem HostAgent.Served.refl (hq : h.Quiet) : Served h.machine.armed 0 h h := ⟨hq, ⟨[], by simp⟩, rfl, rfl⟩

theorem HostAgent.Served.trans (hg : Served a n h g) (hk : Served b m g k) : Served b (n + m) h k := by
  obtain ⟨rs, hrs, hlen, herr⟩ := hg.answers
  obtain ⟨rs', hrs', hlen', herr'⟩ := hk.answers
  refine ⟨hk.quiet, ⟨rs' ++ rs, ?_, ?_, ?_⟩, hk.cmderr.trans hg.cmderr, hk.armed⟩
  · rw [hrs', hrs, List.append_assoc]
  · rw [List.length_append]
    omega
  · intro r hr
    exact (List.mem_append.mp hr).elim (herr' r) (herr r)

theorem HostAgent.Served.mono (hg : Served a n h g) (hmn : m ≤ n) : Served a m h g := by
  obtain ⟨rs, hrs, hlen, herr⟩ := hg.answers
  exact ⟨hg.quiet, ⟨rs, hrs, hmn.trans hlen, herr⟩, hg.cmderr, hg.armed⟩

/-- What the host does with its blocks is no command. -/
theorem HostAgent.Served.withBlocks (hg : Served a n h g) (source stored : List (List Byte)) :
    Served a n h { g with source := source, stored := stored } :=
  ⟨hg.quiet, hg.answers, hg.cmderr, hg.armed⟩

theorem HostAgent.Quiet.issue_served (hq : h.Quiet) {i : Instr} (hcmd : isEvent i = false) (hwf : i.wf = true)
    (hacc : ∀ u : State, u.armed = h.machine.armed → AcceptedIn a i u) : Served a 1 h (h.issue i).2 := by
  obtain ⟨u, t, hwaited, ht, hin, hissue⟩ := hq.issue hcmd hwf
  obtain ⟨t', v, ht', hresp, hcmderr, harmed⟩ := hacc u hwaited.armed
  cases ht.symm.trans ht'
  rw [hissue]
  refine ⟨⟨fun es hes => hq.1 es (List.mem_of_mem_tail hes), hin⟩, ⟨[{ err := false, data := v }], ?_, le_rfl, by simp⟩,
    hcmderr.trans hwaited.cmderr, harmed⟩
  simpa [hwaited.responses] using hresp

/-- The commands that a call issues whether a session runs or not. -/
structure AlwaysAccepted (i : Instr) : Prop where
  command : isEvent i = false
  wf : i.wf = true
  accepted : ∀ u : State, AcceptedIn u.armed i u

theorem alwaysAccepted_poll : AlwaysAccepted .poll := ⟨rfl, rfl, acceptedIn_poll⟩

theorem alwaysAccepted_rdstatus : AlwaysAccepted .rdstatus := ⟨rfl, rfl, acceptedIn_rdstatus⟩

theorem alwaysAccepted_consume : AlwaysAccepted .consume := ⟨rfl, rfl, acceptedIn_consume⟩

theorem alwaysAccepted_setOut (o : OutSig) (v : Bool) :
    AlwaysAccepted (.setsig (BitVec.ofNat 8 o.id) (if v then 1#8 else 0#8)) :=
  ⟨rfl, by cases o <;> cases v <;> rfl, acceptedIn_setOut o v⟩

theorem alwaysAccepted_fillCommands {b : BufId} {data : List Byte} : ∀ i ∈ fillCommands b data, AlwaysAccepted i := by
  intro i hi
  obtain ⟨x, -, rfl⟩ := List.mem_map.mp hi
  exact ⟨rfl, by cases b <;> rfl, acceptedIn_bufwr b _ _⟩

theorem alwaysAccepted_drainCommands {b : BufId} : ∀ i ∈ drainCommands b, AlwaysAccepted i := by
  intro i hi
  obtain ⟨k, -, rfl⟩ := List.mem_map.mp hi
  exact ⟨rfl, by cases b <;> rfl, acceptedIn_bufrd b _⟩

theorem HostAgent.Quiet.issue_always (hq : h.Quiet) {i : Instr} (hi : AlwaysAccepted i) :
    Served h.machine.armed 1 h (h.issue i).2 :=
  hq.issue_served hi.command hi.wf fun u hu => hu ▸ hi.accepted u

theorem HostAgent.Quiet.issueAll_always (hq : h.Quiet) {is : List Instr} (his : ∀ i ∈ is, AlwaysAccepted i) :
    Served h.machine.armed is.length h (h.issueAll is).2 := by
  induction is generalizing h with
  | nil => exact .refl hq
  | cons i is ih =>
    have hfirst := hq.issue_always (his i List.mem_cons_self)
    have hrest := ih hfirst.quiet fun j hj => his j (List.mem_cons_of_mem _ hj)
    rw [hfirst.armed] at hrest
    exact (hfirst.trans hrest).mono (by simp [Nat.add_comm])

/-! ### The parts of a call -/

/-- A call, step by step: `p` after the poll, `s` after the status read, `r` after `ready` is set. -/
theorem HostAgent.ctrlPoll_of_steps {h p s r : HostAgent} {sigs status : Response} (hpoll : h.issue .poll = (sigs, p))
    (hstatus : p.issue .rdstatus = (status, s))
    (hready : s.setSignal .ready (sigs.data.getLsbD 5 && sigs.data.getLsbD 1) = r) :
    h.ctrlPoll =
      ((r.control (sigs.data.getLsbD 4) (sigs.data.getLsbD 5) (status.data.getLsbD 2)).1,
        (r.control (sigs.data.getLsbD 4) (sigs.data.getLsbD 5) (status.data.getLsbD 2)).2.service) := by
  simp only [HostAgent.ctrlPoll, hpoll, hstatus, hready]

theorem HostAgent.Quiet.setSignal_served (hq : h.Quiet) (o : OutSig) (v : Bool) :
    Served h.machine.armed 1 h (h.setSignal o v) :=
  hq.issue_always (alwaysAccepted_setOut o v)

theorem HostAgent.Quiet.prefill_served (hq : h.Quiet) : Served h.machine.armed 0 h h.prefill := by
  have hfill := HostAgent.Quiet.issueAll_always (h := h.nextBlock.2.nextBlock.2) hq
    (is := prefillCommands h.nextBlock.1 h.nextBlock.2.nextBlock.1)
    fun i hi => (List.mem_append.mp hi).elim (alwaysAccepted_fillCommands i) (alwaysAccepted_fillCommands i)
  exact ((HostAgent.Served.refl hq).withBlocks h.source.tail.tail h.stored).trans (hfill.mono (Nat.zero_le _))

/-- Bit 2 of `STATUS` tells the host whether a session runs, and does so until the host's next `ARM` or `DISARM` (R27). -/
theorem HostAgent.Quiet.issue_rdstatus_active (hq : h.Quiet) : (h.issue .rdstatus).1.data.getLsbD 2 = h.machine.armed := by
  obtain ⟨u, t, hwaited, ht, -, hissue⟩ := hq.issue (i := .rdstatus) rfl rfl
  obtain ⟨hactive, -⟩ := statusWord_armed_ph u
  cases ht
  rw [hissue, ← hwaited.armed]
  exact hactive

/-- `ARM` is issued only when no session ran at `RDSTATUS`, and nothing can have started one since (R152). -/
theorem HostAgent.Quiet.control_served (hq : h.Quiet) (stop scan : Bool) :
    ∃ a, Served a 0 h (h.control stop scan h.machine.armed).2 := by
  unfold HostAgent.control
  split_ifs with hstop hstart hactive
  · have hdisarm := hq.issue_served (i := .disarm) rfl rfl fun u _ => acceptedIn_disarm u
    exact ⟨_, (hdisarm.trans (hdisarm.quiet.setSignal_served .motorOn false)).mono (Nat.zero_le _)⟩
  · obtain ⟨-, hidle⟩ : (stop = false ∧ scan = true) ∧ h.machine.armed = false := by simpa using hstart
    have hmotor := hq.setSignal_served .motorOn true
    have hthenArm : ∀ g : HostAgent, Served h.machine.armed 0 (h.setSignal .motorOn true) g →
        ∃ a, Served a 0 h (g.issue .arm).2 := by
      intro g hg
      have harm := hg.quiet.issue_served (i := .arm) rfl rfl fun u hu => acceptedIn_arm (hu.trans (hg.armed.trans hidle))
      exact ⟨_, ((hmotor.trans hg).trans harm).mono (Nat.zero_le _)⟩
    apply hthenArm
    split
    · exact hmotor.armed ▸ hmotor.quiet.prefill_served
    · exact hmotor.armed ▸ .refl hmotor.quiet
  · exact ⟨_, .refl hq⟩
  · exact ⟨_, .refl hq⟩

theorem HostAgent.Quiet.service_served (hq : h.Quiet) : Served h.machine.armed 1 h h.service := by
  have hconsume := hq.issue_always alwaysAccepted_consume
  have hafterConsume : ∀ g : HostAgent, Served (h.issue .consume).2.machine.armed 0 (h.issue .consume).2 g →
      Served h.machine.armed 1 h g :=
    fun g hg => hconsume.armed ▸ hconsume.trans hg
  apply hafterConsume
  have hdone := HostAgent.Served.refl hconsume.quiet
  unfold HostAgent.service
  dsimp only
  split
  · exact hdone
  · split
    · have hfill := HostAgent.Quiet.issueAll_always (h := (h.issue .consume).2.nextBlock.2) hconsume.quiet
        (is := fillCommands (if (h.issue .consume).1.data = 1#32 then .buf0 else .buf1) (h.issue .consume).2.nextBlock.1)
        alwaysAccepted_fillCommands
      exact ((hdone.withBlocks _ _).trans hfill).mono (Nat.zero_le _)
    · exact ((hconsume.quiet.issueAll_always alwaysAccepted_drainCommands).withBlocks _ _).mono (Nat.zero_le _)

theorem HostAgent.Quiet.ctrlPoll_served (hq : h.Quiet) : ∃ a, Served a 4 h h.ctrlPoll.2 := by
  have hpoll := hq.issue_always alwaysAccepted_poll
  have hstatus := hpoll.quiet.issue_always alwaysAccepted_rdstatus
  have hactive := hpoll.quiet.issue_rdstatus_active
  have hready := hstatus.quiet.setSignal_served .ready
    ((h.issue .poll).1.data.getLsbD 5 && (h.issue .poll).1.data.getLsbD 1)
  obtain ⟨a, hcontrol⟩ := hready.quiet.control_served ((h.issue .poll).1.data.getLsbD 4) ((h.issue .poll).1.data.getLsbD 5)
  rw [hready.armed, hstatus.armed, ← hactive] at hcontrol
  rw [HostAgent.ctrlPoll_of_steps Prod.mk.eta.symm Prod.mk.eta.symm rfl]
  exact ⟨_, (((hpoll.trans hstatus).trans hready).trans hcontrol).trans hcontrol.quiet.service_served⟩

end

/-- Settles O59: every command of the call is accepted in every state, but `ARM`, which is issued while disarmed. -/
theorem ctrlPollIsNeverRefused : Obligations.CtrlPollIsNeverRefused := by
  intro h hbetween hin
  obtain ⟨a, hserved⟩ := HostAgent.Quiet.ctrlPoll_served ⟨hbetween, hin⟩
  exact ⟨hserved.answers, hserved.cmderr⟩

end Sys2Proof.Machine
end

section
/-!
The host's commands with nothing between them: the machine runs them one after the other, so a call has the branches of R150, and
every block goes to the buffer it is sent to.
-/

namespace Sys2Proof.Machine

/-! ### Issuing commands -/

/-- Nothing falls between the commands to come, and nothing is left on the ports. -/
def HostAgent.Alone (h : HostAgent) : Prop := h.between = [] ∧ h.machine.inputs = []

section
variable {h : HostAgent}

theorem HostAgent.Alone.issue (ha : h.Alone) {i : Instr} {t : State} (hcmd : isEvent i = false) (hwf : i.wf = true)
    (hx : exec i h.machine = .next t) :
    h.issue i = (t.responses.headD { err := true, data := 0#32 }, { h with machine := t }) := by
  obtain ⟨hb, hin⟩ := ha
  obtain ⟨w, hw⟩ := exists_encode_eq_word hcmd
  exact HostAgent.issue_spec hb hin hw ((decodeWord_eq_some_iff w i).mpr ⟨hw, hwf⟩) hx ((exec_command_inputs hcmd hx).trans hin)

theorem HostAgent.Alone.setSignal (ha : h.Alone) (o : OutSig) (v : Bool) :
    h.setSignal o v = { h with machine := (h.machine.withSignals (h.machine.signals.setOut o v)).answered 0#32 } := by
  have hset := alwaysAccepted_setOut o v
  rw [HostAgent.setSignal, ha.issue hset.command hset.wf (exec_setOut o v h.machine)]

/-- Commands issued one after the other are the run of `runOps`; the machine holds their responses newest first. -/
theorem HostAgent.Alone.issueAll (ha : h.Alone) {is : List Instr} (his : ∀ i ∈ is, AlwaysAccepted i) {t : State}
    (hrun : runOps is h.machine = .next t) :
    (h.issueAll is).2 = { h with machine := t } ∧ t.responses = (h.issueAll is).1.reverse ++ h.machine.responses := by
  induction is generalizing h with
  | nil =>
    cases hrun
    exact ⟨rfl, rfl⟩
  | cons i is ih =>
    have hi := his i List.mem_cons_self
    obtain ⟨u, v, hu, hresp, -, -⟩ := hi.accepted h.machine
    have hissue := ha.issue hi.command hi.wf hu
    rw [runOps_cons is hu] at hrun
    obtain ⟨hmachine, hresponses⟩ := ih (h := { h with machine := u })
      ⟨ha.1, (exec_command_inputs hi.command hu).trans ha.2⟩ (fun j hj => his j (List.mem_cons_of_mem _ hj)) hrun
    simp only [HostAgent.issueAll, hissue]
    exact ⟨hmachine, by simp [hresponses, hresp]⟩

end

/-! ### Filling and draining a buffer -/

/-- `s` with another content of the RAM, and more responses given. -/
def State.withRam (s : State) (m : Memory) (rs : List Response) : State :=
  (s.withStore { s.store with ram := m }).withResponses rs

/-- `m'` is `m` with the bytes of `data` in buffer `b`; where a short block gives no byte, nothing changes (R100, R163). -/
structure BlockPut (b : BufId) (data : List Byte) (m m' : Memory) : Prop where
  bytes : ∀ i, i < 256 → m'.read (256 * b.index + i) = (data[i]?).getD (m.read (256 * b.index + i))
  others : ∀ a, a < 256 * b.index ∨ 256 * b.index + 256 ≤ a → m'.read a = m.read a

theorem FilledUpTo.blockPut {s t : State} {b : BufId} {data : List Byte}
    (h : FilledUpTo s b (data.take 256) (data.take 256).length t) : BlockPut b data s.store.ram t.store.ram := by
  have hlen : (data.take 256).length ≤ 256 := List.length_take_le ..
  refine ⟨fun i hi => ?_, fun a ha => h.others a (by omega)⟩
  rw [← List.getElem?_take_of_lt hi]
  by_cases hgiven : i < (data.take 256).length
  · rw [h.filled i hgiven, List.getElem?_eq_getElem hgiven, List.getD_eq_getElem _ _ hgiven, Option.getD_some]
  · rw [h.others _ (by omega), List.getElem?_eq_none (Nat.le_of_not_lt hgiven), Option.getD_none]

/-- A `FILL` takes no more than 256 bytes of a block. -/
theorem fillCommands_take (b : BufId) (data : List Byte) : fillCommands b (data.take 256) = fillCommands b data := by
  simp [fillCommands, Config.bufferSize, List.take_take]

theorem runOps_fillCommands_blockPut (s : State) (b : BufId) (data : List Byte) :
    ∃ m rs, runOps (fillCommands b data) s = .next (s.withRam m rs) ∧ BlockPut b data s.store.ram m := by
  obtain ⟨t, ht, hfilled⟩ := runOps_fillCommands s b (data := data.take 256) (List.length_take_le ..)
  have hframe : t = s.withRam t.store.ram (List.replicate (data.take 256).length { err := false, data := 0#32 } ++ s.responses) :=
    hfilled.frame
  rw [fillCommands_take, hframe] at ht
  exact ⟨_, _, ht, hfilled.blockPut⟩

section
variable {h : HostAgent}

theorem HostAgent.Alone.fill (ha : h.Alone) (b : BufId) (data : List Byte) :
    ∃ m rs, (h.issueAll (fillCommands b data)).2 =
        { h with machine := h.machine.withRam m rs } ∧
      BlockPut b data h.machine.store.ram m := by
  obtain ⟨m, rs, hrun, hput⟩ := runOps_fillCommands_blockPut h.machine b data
  exact ⟨m, rs, (ha.issueAll alwaysAccepted_fillCommands hrun).1, hput⟩

theorem HostAgent.Alone.drain (ha : h.Alone) (b : BufId) :
    (∃ rs, (h.issueAll (drainCommands b)).2 = { h with machine := h.machine.withResponses rs }) ∧
      ((h.issueAll (drainCommands b)).1.map fun r => r.data.setWidth 8) =
        (List.range 256).map fun i => h.machine.store.ram.read (256 * b.index + i) := by
  obtain ⟨hmachine, hresponses⟩ := ha.issueAll alwaysAccepted_drainCommands (runOps_drainCommands h.machine b)
  refine ⟨⟨_, hmachine⟩, ?_⟩
  rw [← List.reverse_injective (List.append_cancel_right hresponses), List.map_map]
  refine List.map_congr_left fun i _ => ?_
  simp

/-- `PREFILL`: buffer 0, then buffer 1 (R151). -/
theorem HostAgent.Alone.prefill (ha : h.Alone) :
    ∃ m m' rs, h.prefill =
        { h with
          machine := h.machine.withRam m' rs
          source := h.source.drop 2 } ∧
      BlockPut .buf0 (h.source.headD []) h.machine.store.ram m ∧ BlockPut .buf1 ((h.source.drop 1).headD []) m m' := by
  obtain ⟨m, rs, hrun, hput⟩ := runOps_fillCommands_blockPut h.machine .buf0 (h.source.headD [])
  obtain ⟨m', rs', hrun', hput'⟩ := runOps_fillCommands_blockPut
    (h.machine.withRam m rs) .buf1 ((h.source.drop 1).headD [])
  refine ⟨m, m', rs', ?_, hput, hput'⟩
  have hboth := (runOps_append _ hrun).trans hrun'
  have hissued := (HostAgent.Alone.issueAll (h := { h with source := h.source.drop 2 }) ha
    (fun i hi => (List.mem_append.mp hi).elim (alwaysAccepted_fillCommands i) (alwaysAccepted_fillCommands i)) hboth).1
  simp only [HostAgent.prefill, prefillCommands, HostAgent.nextBlock_fst, HostAgent.nextBlock_snd, ← List.drop_one,
    List.drop_drop]
  exact hissued

end

/-! ### Step 7: the request -/

section
variable {h : HostAgent}

/-- What `CONSUME` leaves (R97). -/
def State.consumed (s : State) : State :=
  (s.withStore { s.store with refill := none }).answered ((refillCode s.store.refill).setWidth 32)

theorem HostAgent.Alone.issue_consume (ha : h.Alone) :
    h.issue .consume =
      ({ err := false, data := (refillCode h.machine.store.refill).setWidth 32 }, { h with machine := h.machine.consumed }) :=
  ha.issue rfl rfl (exec_consume h.machine)

/-- The response of `CONSUME` names the buffer of the request (R97). -/
theorem refillCode_some_word (b : BufId) :
    ¬ (refillCode (some b)).setWidth 32 = 0#32 ∧
      (if (refillCode (some b)).setWidth 32 = 1#32 then BufId.buf0 else .buf1) = b := by
  cases b <;> decide

theorem HostAgent.Alone.service_of_none (ha : h.Alone) (hr : h.machine.store.refill = none) :
    h.service = { h with machine := h.machine.consumed } := by
  simp only [HostAgent.service, ha.issue_consume, hr]
  rfl

/-- A request while emitting takes the next block (R150). -/
theorem HostAgent.Alone.service_emit (ha : h.Alone) {b : BufId} (hr : h.machine.store.refill = some b)
    (hdir : h.machine.engine.cfg.getLsbD 0 = false) :
    ∃ m rs, h.service = { h with machine := h.machine.consumed.withRam m rs, source := h.source.drop 1 } ∧
      BlockPut b (h.source.headD []) h.machine.store.ram m := by
  obtain ⟨hsome, hb⟩ := refillCode_some_word b
  have hemit : h.machine.consumed.engine.dir = .emit := h.machine.engine.dir_eq_emit.mpr hdir
  obtain ⟨m, rs, hfill, hput⟩ :=
    HostAgent.Alone.fill (h := { h with machine := h.machine.consumed, source := h.source.drop 1 }) ha b (h.source.headD [])
  refine ⟨m, rs, ?_, hput⟩
  simpa only [HostAgent.service, ha.issue_consume, hr, if_neg hsome, hb, hemit, HostAgent.nextBlock_fst, HostAgent.nextBlock_snd,
    ← List.drop_one] using hfill

/-- A request while capturing stores the buffer (R150). -/
theorem HostAgent.Alone.service_capture (ha : h.Alone) {b : BufId} (hr : h.machine.store.refill = some b)
    (hdir : h.machine.engine.cfg.getLsbD 0 = true) :
    ∃ rs, h.service =
      { h with
        machine := h.machine.consumed.withResponses rs
        stored := ((List.range 256).map fun i => h.machine.store.ram.read (256 * b.index + i)) :: h.stored } := by
  obtain ⟨hsome, hb⟩ := refillCode_some_word b
  have hcapture : h.machine.consumed.engine.dir = .capture := h.machine.engine.dir_eq_capture.mpr hdir
  obtain ⟨⟨rs, hmachine⟩, hbytes⟩ := HostAgent.Alone.drain (h := { h with machine := h.machine.consumed }) ha b
  refine ⟨rs, ?_⟩
  simp only [HostAgent.service, ha.issue_consume, hr, if_neg hsome, hb, hcapture, hmachine, hbytes]
  rfl

/-- Serving the request moves bytes only: no signal and no session (R150 step 7). -/
theorem HostAgent.Alone.service_frame (ha : h.Alone) :
    h.service.machine.signals = h.machine.signals ∧ h.service.machine.engine = h.machine.engine ∧
      h.service.machine.store.refill = none := by
  cases hr : h.machine.store.refill with
  | none => rw [ha.service_of_none hr]; exact ⟨rfl, rfl, rfl⟩
  | some b =>
    cases hdir : h.machine.engine.cfg.getLsbD 0 with
    | false =>
      obtain ⟨m, rs, hservice, -⟩ := ha.service_emit hr hdir
      rw [hservice]
      exact ⟨rfl, rfl, rfl⟩
    | true =>
      obtain ⟨rs, hservice⟩ := ha.service_capture hr hdir
      rw [hservice]
      exact ⟨rfl, rfl, rfl⟩

end

/-! ### Steps 3 to 6: the session -/

/-- Whether a call starts a session (R150 step 4). -/
def startsSession (stop scan active : Bool) : Bool := !stop && scan && !active

theorem startsSession_iff {stop scan active : Bool} :
    startsSession stop scan active = true ↔ stop = false ∧ scan = true ∧ active = false := by
  simp [startsSession, and_assoc]

/-- What steps 3 to 6 leave of the machine `s`: a session exactly if `armed`, and the motor on exactly if `motorOn`. -/
structure Controlled (armed motorOn : Bool) (s t : State) : Prop where
  inputs : t.inputs = s.inputs
  armed : t.armed = armed
  motorOn : t.signals.motorOn = motorOn
  ready : t.signals.ready = s.signals.ready
  cfg : t.engine.cfg = s.engine.cfg

section
variable {h : HostAgent}

theorem HostAgent.Alone.control_stop (ha : h.Alone) (harmed : h.machine.armed = true) (scan : Bool) :
    ∃ t, h.control true scan true = (.idle, { h with machine := t }) ∧ Controlled false false h.machine t ∧
      t.store = h.machine.store := by
  have hx := exec_disarm (h.machine.armed_iff.mp harmed)
  have hset := HostAgent.Alone.setSignal (h := { h with machine := h.machine.endSession.answered 0#32 })
    ⟨ha.1, (exec_command_inputs rfl hx).trans ha.2⟩ .motorOn false
  have hcontrol : h.control true scan true = (.idle, HostAgent.setSignal (h.issue .disarm).2 .motorOn false) := rfl
  rw [ha.issue rfl rfl hx, hset, State.endSession_spec] at hcontrol
  exact ⟨_, hcontrol, ⟨rfl, rfl, rfl, rfl, rfl⟩, rfl⟩

/-- The motor is on: what a call that starts a session does first. -/
def State.motorStarted (s : State) : State := (s.withSignals (s.signals.setOut .motorOn true)).answered 0#32

theorem State.started_controlled (s : State) (m : Memory) (rs : List Response) :
    Controlled true true s (s.motorStarted.withRam m rs).started := by
  rw [State.started, State.startSession_spec]
  exact ⟨rfl, rfl, rfl, rfl, rfl⟩

theorem HostAgent.Alone.issue_arm (ha : h.Alone) (harmed : h.machine.armed = false) :
    h.issue .arm = ({ err := false, data := 0#32 }, { h with machine := h.machine.started }) :=
  ha.issue (t := h.machine.started) rfl rfl (exec_arm (State.fsm_of_not_armed (by simp [harmed])))

/-- A call that starts an EMIT session fills both buffers before `ARM` fetches the first byte (R150 step 4). -/
theorem HostAgent.Alone.control_start_emit (ha : h.Alone) {stop scan : Bool}
    (hstart : startsSession stop scan h.machine.armed = true) (hdir : h.machine.engine.cfg.getLsbD 0 = false) :
    ∃ t m, h.control stop scan h.machine.armed = (.busy, { h with machine := t, source := h.source.drop 2 }) ∧
      Controlled true true h.machine t ∧ t.store.refill = none ∧ t.engine.curByte = t.store.ram.read 0 ∧
      BlockPut .buf0 (h.source.headD []) h.machine.store.ram m ∧
      BlockPut .buf1 ((h.source.drop 1).headD []) m t.store.ram := by
  obtain ⟨rfl, rfl, harmed⟩ := startsSession_iff.mp hstart
  obtain ⟨m, m', rs, hprefill, hput, hput'⟩ := HostAgent.Alone.prefill (h := { h with machine := h.machine.motorStarted }) ha
  have harm := HostAgent.Alone.issue_arm
    (h := { h with machine := h.machine.motorStarted.withRam m' rs, source := h.source.drop 2 }) ha harmed
  have hmotor : h.setSignal .motorOn true = { h with machine := h.machine.motorStarted } := ha.setSignal .motorOn true
  have hemit : h.machine.motorStarted.engine.dir = .emit := h.machine.engine.dir_eq_emit.mpr hdir
  refine ⟨(h.machine.motorStarted.withRam m' rs).started, m, ?_, State.started_controlled _ _ _, ?_, ?_, hput, ?_⟩
  · simp [HostAgent.control, harmed, hmotor, hemit, hprefill, harm]
  · rw [State.started_store]
  · rw [State.started_engine, State.started_store]
    exact if_neg (Bool.eq_false_iff.mp hdir)
  · rw [State.started_store]
    exact hput'

theorem HostAgent.Alone.control_start_capture (ha : h.Alone) {stop scan : Bool}
    (hstart : startsSession stop scan h.machine.armed = true) (hdir : h.machine.engine.cfg.getLsbD 0 = true) :
    ∃ t, h.control stop scan h.machine.armed = (.busy, { h with machine := t }) ∧ Controlled true true h.machine t ∧
      t.store.refill = none ∧ t.store.ram = h.machine.store.ram := by
  obtain ⟨rfl, rfl, harmed⟩ := startsSession_iff.mp hstart
  have harm := HostAgent.Alone.issue_arm (h := { h with machine := h.machine.motorStarted }) ha harmed
  have hmotor : h.setSignal .motorOn true = { h with machine := h.machine.motorStarted } := ha.setSignal .motorOn true
  have hcapture : h.machine.motorStarted.engine.dir = .capture := h.machine.engine.dir_eq_capture.mpr hdir
  refine ⟨h.machine.motorStarted.started, ?_, h.machine.started_controlled h.machine.store.ram _, ?_, ?_⟩
  · simp [HostAgent.control, harmed, hmotor, hcapture, harm]
  · rw [State.started_store]
  · rw [State.started_store]
    rfl

/-- Neither a stop nor a start: no command is issued (R150). -/
theorem HostAgent.control_nothing (h : HostAgent) {stop scan active : Bool} (hstop : (active && stop) = false)
    (hstart : (!stop && scan && !active) = false) :
    h.control stop scan active = (if active then .busy else .idle, h) := by
  simp only [HostAgent.control, hstop, hstart]
  cases active <;> rfl

/-- A call that starts no session leaves the store and the blocks to step 7. -/
theorem HostAgent.Alone.control_of_not_start (ha : h.Alone) {stop scan : Bool}
    (hstart : startsSession stop scan h.machine.armed = false) :
    ∃ r t, h.control stop scan h.machine.armed = (r, { h with machine := t }) ∧
      Controlled (h.machine.armed && !stop) (!(h.machine.armed && stop) && h.machine.signals.motorOn) h.machine t ∧
      (r = .busy ↔ t.armed = true) ∧ t.store = h.machine.store := by
  cases hstop : h.machine.armed && stop with
  | true =>
    obtain ⟨harmed, rfl⟩ : h.machine.armed = true ∧ stop = true := by simpa using hstop
    obtain ⟨t, hcontrol, hcontrolled, hstore⟩ := ha.control_stop harmed scan
    rw [harmed]
    exact ⟨.idle, t, hcontrol, hcontrolled, by simp [hcontrolled.armed], hstore⟩
  | false =>
    have harmed : (h.machine.armed && !stop) = h.machine.armed := by
      simpa using hstop
    rw [harmed]
    refine ⟨_, h.machine, h.control_nothing hstop hstart, ⟨rfl, rfl, rfl, rfl, rfl⟩, ?_, rfl⟩
    cases h.machine.armed <;> simp

/-- Steps 3 to 6 in all their branches, as far as the session and `motor_on` go. -/
theorem HostAgent.Alone.control_settles (ha : h.Alone) (stop scan : Bool) :
    ∃ r t source, h.control stop scan h.machine.armed = (r, { h with machine := t, source := source }) ∧
      Controlled (if h.machine.armed then !stop else !stop && scan)
        (if h.machine.armed && stop then false
          else if !stop && scan && !h.machine.armed then true else h.machine.signals.motorOn) h.machine t ∧
      (r = .busy ↔ t.armed = true) := by
  cases hstart : startsSession stop scan h.machine.armed with
  | true =>
    obtain ⟨rfl, rfl, harmed⟩ := startsSession_iff.mp hstart
    have hbranch : ∀ t, Controlled true true h.machine t → Controlled (if h.machine.armed then !false else !false && true)
        (if h.machine.armed && false then false
          else if !false && true && !h.machine.armed then true else h.machine.signals.motorOn) h.machine t := by
      simp [harmed]
    cases hdir : h.machine.engine.cfg.getLsbD 0 with
    | false =>
      obtain ⟨t, m, hcontrol, hcontrolled, -⟩ := ha.control_start_emit hstart hdir
      exact ⟨_, t, _, hcontrol, hbranch t hcontrolled, by simp [hcontrolled.armed]⟩
    | true =>
      obtain ⟨t, hcontrol, hcontrolled, -⟩ := ha.control_start_capture hstart hdir
      exact ⟨_, t, h.source, hcontrol, hbranch t hcontrolled, by simp [hcontrolled.armed]⟩
  | false =>
    obtain ⟨r, t, hcontrol, hcontrolled, hbusy, -⟩ := ha.control_of_not_start hstart
    refine ⟨r, t, h.source, hcontrol, ?_, hbusy⟩
    convert hcontrolled using 1
    · revert hstart
      cases h.machine.armed <;> cases stop <;> simp [startsSession]
    · rw [startsSession] at hstart
      rw [hstart]
      cases h.machine.armed && stop <;> rfl

end

/-! ### The call -/

/-- The machine with its input registers latched (R85). -/
def State.latched (s : State) : State := s.withSignals (s.signals.latch s.pins)

/-- The machine after `POLL` and `RDSTATUS`. -/
def State.observed (s : State) : State :=
  (s.latched.answered s.latched.sigsWord).answered (s.latched.answered s.latched.sigsWord).statusWord

/-- The machine when step 3 begins: observed, and `ready` set to scan AND the `motor_on` of before the call (R150). -/
def State.polled (s : State) : State :=
  (s.observed.withSignals (s.observed.signals.setOut .ready (!s.pins.scanMedia && s.signals.motorOn))).answered 0#32

/-- What the host reads off the response of `POLL` (R28, R85). -/
theorem State.latched_sigsWord (s : State) :
    s.latched.sigsWord.getLsbD 4 = !s.pins.stopMotor ∧ s.latched.sigsWord.getLsbD 5 = !s.pins.scanMedia ∧
      s.latched.sigsWord.getLsbD 1 = s.signals.motorOn :=
  ⟨(sigsWord_signal _ (.inp .stopMotor)).trans (s.signals.get_latch_inp s.pins .stopMotor),
    (sigsWord_signal _ (.inp .scanMedia)).trans (s.signals.get_latch_inp s.pins .scanMedia),
    sigsWord_signal _ (.out .motorOn)⟩

section
variable {h : HostAgent}

theorem HostAgent.Alone.issue_poll (ha : h.Alone) :
    h.issue .poll =
      ({ err := false, data := h.machine.latched.sigsWord },
        { h with machine := h.machine.latched.answered h.machine.latched.sigsWord }) :=
  ha.issue rfl rfl (exec_poll h.machine)

theorem HostAgent.Alone.issue_rdstatus (ha : h.Alone) :
    h.issue .rdstatus =
      ({ err := false, data := h.machine.statusWord }, { h with machine := h.machine.answered h.machine.statusWord }) :=
  ha.issue (t := h.machine.answered h.machine.statusWord) rfl rfl rfl

/-- A call is steps 3 to 6 from the polled machine, then step 7. -/
theorem HostAgent.Alone.ctrlPoll_of_control (ha : h.Alone) {r : PollResult} {g : HostAgent}
    (hcontrol : HostAgent.control { h with machine := h.machine.polled } (!h.machine.pins.stopMotor) (!h.machine.pins.scanMedia)
      h.machine.armed = (r, g)) :
    h.ctrlPoll = (r, g.service) := by
  obtain ⟨hstop, hscan, hmotor⟩ := h.machine.latched_sigsWord
  have hactive : (h.machine.latched.answered h.machine.latched.sigsWord).statusWord.getLsbD 2 = h.machine.armed :=
    (statusWord_armed_ph _).1
  have hstatus := HostAgent.Alone.issue_rdstatus
    (h := { h with machine := h.machine.latched.answered h.machine.latched.sigsWord }) ha
  have hready : HostAgent.setSignal { h with machine := h.machine.observed } .ready
      (h.machine.latched.sigsWord.getLsbD 5 && h.machine.latched.sigsWord.getLsbD 1) = { h with machine := h.machine.polled } := by
    rw [hscan, hmotor]
    exact HostAgent.Alone.setSignal (h := { h with machine := h.machine.observed }) ha .ready _
  rw [HostAgent.ctrlPoll_of_steps ha.issue_poll hstatus hready, hstop, hscan, hactive, hcontrol]

end

/-- Settles O58: the poll sets `ready`, `control_settles` the motor and the session, and serving the request touches neither. -/
theorem ctrlPollSettlesSignalsAndSession : Obligations.CtrlPollSettlesSignalsAndSession := by
  intro h hbetween hin
  have ha : h.Alone := ⟨hbetween, hin⟩
  obtain ⟨r, t, source, hcontrol, hcontrolled, hbusy⟩ :=
    HostAgent.Alone.control_settles (h := { h with machine := h.machine.polled }) ha (!h.machine.pins.stopMotor)
      (!h.machine.pins.scanMedia)
  obtain ⟨hsignals, hengine, hrefill⟩ :=
    HostAgent.Alone.service_frame (h := { h with machine := t, source := source }) ⟨hbetween, hcontrolled.inputs.trans hin⟩
  have harmed : (HostAgent.service { h with machine := t, source := source }).machine.armed = t.armed := by
    rw [State.armed, hengine]
    rfl
  rw [ha.ctrlPoll_of_control hcontrol]
  dsimp only
  rw [hsignals, harmed, hrefill]
  exact ⟨hcontrolled.ready, hcontrolled.motorOn, hcontrolled.armed, hbusy, rfl⟩

/-! ### Where the bytes go -/

theorem BlockPut.read_both {d0 d1 : List Byte} {m m' m'' : Memory} (h0 : BlockPut .buf0 d0 m m') (h1 : BlockPut .buf1 d1 m' m'') :
    (∀ i, i < 256 → m''.read i = (d0[i]?).getD (m.read i)) ∧
      ∀ i, i < 256 → m''.read (256 + i) = (d1[i]?).getD (m.read (256 + i)) := by
  refine ⟨fun i hi => ?_, fun i hi => ?_⟩
  · have hbyte := h0.bytes i hi
    rw [BufId.index, Nat.mul_zero, Nat.zero_add] at hbyte
    rw [h1.others i (.inl hi), hbyte]
  · have hbyte := h1.bytes i hi
    rw [BufId.index, Nat.mul_one] at hbyte
    rw [hbyte, h0.others (256 + i) (.inr (Nat.le_add_right ..))]

section
variable {h : HostAgent}

/-- A call that starts an EMIT session: both buffers are filled, and no request is left to serve. -/
theorem HostAgent.Alone.ctrlPoll_start_emit (ha : h.Alone)
    (hstart : startsSession (!h.machine.pins.stopMotor) (!h.machine.pins.scanMedia) h.machine.armed = true)
    (hdir : h.machine.engine.cfg.getLsbD 0 = false) :
    ∃ t m, h.ctrlPoll.2 = { h with machine := t, source := h.source.drop 2 } ∧ t.engine.curByte = t.store.ram.read 0 ∧
      BlockPut .buf0 (h.source.headD []) h.machine.store.ram m ∧
      BlockPut .buf1 ((h.source.drop 1).headD []) m t.store.ram := by
  obtain ⟨hb, hin⟩ := ha
  obtain ⟨t, m, hcontrol, hcontrolled, hrefill, hbyte, hput, hput'⟩ :=
    HostAgent.Alone.control_start_emit (h := { h with machine := h.machine.polled }) ⟨hb, hin⟩ hstart hdir
  have hservice := HostAgent.Alone.service_of_none (h := { h with machine := t, source := h.source.drop 2 })
    ⟨hb, hcontrolled.inputs.trans hin⟩ hrefill
  rw [HostAgent.Alone.ctrlPoll_of_control ⟨hb, hin⟩ hcontrol]
  dsimp only
  exact ⟨t.consumed, m, hservice, hbyte, hput, hput'⟩

/-- A call that starts a CAPTURE session moves no byte. -/
theorem HostAgent.Alone.ctrlPoll_start_capture (ha : h.Alone)
    (hstart : startsSession (!h.machine.pins.stopMotor) (!h.machine.pins.scanMedia) h.machine.armed = true)
    (hdir : h.machine.engine.cfg.getLsbD 0 = true) :
    ∃ t, h.ctrlPoll.2 = { h with machine := t } ∧ t.store.ram = h.machine.store.ram := by
  obtain ⟨hb, hin⟩ := ha
  obtain ⟨t, hcontrol, hcontrolled, hrefill, hram⟩ :=
    HostAgent.Alone.control_start_capture (h := { h with machine := h.machine.polled }) ⟨hb, hin⟩ hstart hdir
  have hservice := HostAgent.Alone.service_of_none (h := { h with machine := t }) ⟨hb, hcontrolled.inputs.trans hin⟩ hrefill
  rw [HostAgent.Alone.ctrlPoll_of_control ⟨hb, hin⟩ hcontrol]
  dsimp only
  exact ⟨t.consumed, hservice, hram⟩

/-- Any other call moves what step 7 moves, from the store and in the direction of before the call. -/
theorem HostAgent.Alone.ctrlPoll_of_not_start (ha : h.Alone)
    (hstart : startsSession (!h.machine.pins.stopMotor) (!h.machine.pins.scanMedia) h.machine.armed = false) :
    ∃ t, h.ctrlPoll.2 = HostAgent.service { h with machine := t } ∧ HostAgent.Alone { h with machine := t } ∧
      t.store = h.machine.store ∧ t.engine.cfg = h.machine.engine.cfg := by
  obtain ⟨r, t, hcontrol, hcontrolled, -, hstore⟩ :=
    HostAgent.Alone.control_of_not_start (h := { h with machine := h.machine.polled }) ha hstart
  obtain ⟨hb, hin⟩ := ha
  rw [HostAgent.Alone.ctrlPoll_of_control ⟨hb, hin⟩ hcontrol]
  dsimp only
  exact ⟨t, rfl, ⟨hb, hcontrolled.inputs.trans hin⟩, hstore, hcontrolled.cfg⟩

end

/-- Settles O60, by the cases of the statement: a start and its direction, or a request and the direction. -/
theorem ctrlPollMovesTheBuffers : Obligations.CtrlPollMovesTheBuffers := by
  intro h hbetween hin before starts
  have ha : h.Alone := ⟨hbetween, hin⟩
  have hstarts : startsSession (!h.machine.pins.stopMotor) (!h.machine.pins.scanMedia) h.machine.armed = starts := by
    simp [startsSession, starts]
  refine ⟨fun hs hdir => ?startEmit, fun hs hdir => ?startCapture, fun b hs hr hdir => ?requestEmit,
    fun b hs hr hdir => ?requestCapture, fun hs hr => ?noRequest⟩
  case startEmit =>
    obtain ⟨t, m, hcall, hbyte, hput, hput'⟩ := ha.ctrlPoll_start_emit (hstarts.trans hs) hdir
    obtain ⟨hlow, hhigh⟩ := hput.read_both hput'
    rw [hcall]
    exact ⟨hlow, hhigh, hbyte, rfl, rfl⟩
  case startCapture =>
    obtain ⟨t, hcall, hram⟩ := ha.ctrlPoll_start_capture (hstarts.trans hs) hdir
    rw [hcall]
    exact ⟨fun a => congrArg (Memory.read · a) hram, rfl, rfl⟩
  all_goals
    obtain ⟨t, hcall, hat, hstore, hcfg⟩ := ha.ctrlPoll_of_not_start (hstarts.trans hs)
    have hrefill : t.store.refill = h.machine.store.refill := congrArg Store.refill hstore
    have hdir' : t.engine.cfg.getLsbD 0 = h.machine.engine.cfg.getLsbD 0 := congrArg (BitVec.getLsbD · 0) hcfg
    have hread : ∀ a, t.store.ram.read a = before a := fun a => congrArg (fun m : Store => m.ram.read a) hstore
    rw [hcall]
  case requestEmit =>
    obtain ⟨m, rs, hservice, hput⟩ := hat.service_emit (hrefill.trans hr) (hdir'.trans hdir)
    have hput : BlockPut b (h.source.headD []) h.machine.store.ram m := hstore ▸ hput
    rw [hservice]
    exact ⟨hput.bytes, hput.others, rfl, rfl⟩
  case requestCapture =>
    obtain ⟨rs, hservice⟩ := hat.service_capture (hrefill.trans hr) (hdir'.trans hdir)
    rw [hservice]
    exact ⟨hread, rfl, congrArg (· :: h.stored) (List.map_congr_left fun i _ => hread _)⟩
  case noRequest =>
    rw [hat.service_of_none (hrefill.trans hr)]
    exact ⟨hread, rfl, rfl⟩

end Sys2Proof.Machine
end

section
/-! What a tick never writes, and what a command never writes while the engine is armed (R168, R190). -/

namespace Sys2Proof.Machine

/-! ### The frame of a tick -/

/-- What a tick keeps of the registers it could reach: the configuration, `crc` unless `CRC_EN` is 1, and the RAM when emitting. -/
structure TickFrame (s t : State) : Prop where
  cfg : t.engine.cfg = s.engine.cfg
  gapLen : t.engine.gapLen = s.engine.gapLen
  side : t.engine.side = s.engine.side
  seed : t.crc.seed = s.crc.seed
  crc : s.engine.cfg.getLsbD 4 = false → t.crc.value = s.crc.value
  ram : s.engine.cfg.getLsbD 0 = false → t.store.ram = s.store.ram

theorem State.bitEmit_frame (s : State) : TickFrame s s.bitEmit := by
  rw [State.bitEmit_spec]
  split
  · exact ⟨rfl, rfl, rfl, rfl, fun hcrc => if_neg (ne_true_of_eq_false hcrc), fun _ => s.stepCursor_ram⟩
  · exact ⟨rfl, rfl, rfl, rfl, fun _ => rfl, fun _ => rfl⟩

/-- The eighth sampled bit is stored in the RAM, which the frame allows in CAPTURE direction only. -/
theorem State.bitCapture_frame {s : State} (hdir : s.engine.cfg.getLsbD 0 = true) : TickFrame s s.bitCapture := by
  rw [State.bitCapture_spec]
  dsimp only
  split
  · exact ⟨rfl, rfl, rfl, rfl, fun hcrc => if_neg (ne_true_of_eq_false hcrc),
      fun hemit => absurd hdir (ne_true_of_eq_false hemit)⟩
  · exact ⟨rfl, rfl, rfl, rfl, fun _ => rfl, fun _ => rfl⟩

theorem State.transfer_frame (s : State) (low : Bool) : TickFrame s (s.transfer low) := by
  rw [State.transfer_spec]
  split
  · split
    · next hdir => exact State.bitCapture_frame hdir
    · exact s.bitEmit_frame
  · exact ⟨rfl, rfl, rfl, rfl, fun _ => rfl, fun _ => rfl⟩

/-- What a tick does around its action: the clock line, the engine state and the phase are outside the frame. -/
theorem TickFrame.of_action {s t : State} {f : Fsm} (h : TickFrame (s.strobeClock.setFsm f) t) : TickFrame s t.togglePhase :=
  ⟨h.cfg, h.gapLen, h.side, h.seed, h.crc, h.ram⟩

theorem State.tick_frame (s : State) : TickFrame s s.tick := by
  rcases s.tick_spec with ⟨-, h⟩ | ⟨-, -, h⟩ | ⟨-, -, -, h⟩ | ⟨-, -, -, h⟩ | ⟨-, h⟩ <;> rw [h]
  · exact ⟨rfl, rfl, rfl, rfl, fun _ => rfl, fun _ => rfl⟩
  · rw [State.gapFirstOne_spec]
    exact ⟨rfl, rfl, rfl, rfl, fun _ => rfl, fun _ => rfl⟩
  · rw [State.gapCount_spec]
    exact ⟨rfl, rfl, rfl, rfl, fun _ => rfl, fun _ => rfl⟩
  · exact .of_action ((s.strobeClock.setFsm .xfer).transfer_frame _)
  · exact .of_action (f := s.engine.fsm) (s.strobeClock.transfer_frame _)

/-- The only byte a tick can write is the one under the cursor, in the active buffer (R123, R125). -/
theorem State.tick_read_inactive (s : State) (k : BitVec 8) :
    s.tick.store.ram.read (ramAddr s.store.sel.other k) = s.store.ram.read (ramAddr s.store.sel.other k) := by
  obtain hram | ⟨v, hram⟩ := s.tick_portUse.ram <;> rw [hram]
  refine Memory.read_write_other _ v fun haddr => s.store.sel.other_ne ?_
  exact (ramAddr_inj (haddr.trans (ramAddr_cursor s).symm)).1

/-- The only flag a tick can set is `underrun` (R160). -/
theorem State.tick_keeps_abort_cmderr (s : State) :
    s.tick.flags.abort = s.flags.abort ∧ s.tick.flags.cmderr = s.flags.cmderr := by
  obtain hflags | hflags := s.tick_portUse.flags <;> rw [hflags]
  · exact ⟨rfl, rfl⟩
  · exact ⟨rfl, rfl⟩

/-- Settles O41: the frame of the engine and the accumulator, and the one byte an access through the engine port can write. -/
theorem tickWritesOnlyItsFields : Obligations.TickWritesOnlyItsFields := by
  intro s t h
  cases h
  obtain ⟨hcfg, hgapLen, hside, hseed, hcrc, hram⟩ := s.tick_frame
  obtain ⟨habort, hcmderr⟩ := s.tick_keeps_abort_cmderr
  obtain ⟨hresponses, hinputs, hpins⟩ := s.tick_keepsPorts
  exact ⟨s.tick_signals, hcfg, hgapLen, hside, hseed, habort, hcmderr, hpins, hinputs, hresponses, s.tick_read_inactive,
    fun hemit a => congrArg (Memory.read · a) (hram hemit), hcrc⟩

/-! ### The frame of a command while armed -/

section
variable {i : Instr} {s t : State}

/-- Of the engine's registers a command writes `side` at most, and `DISARM` ends the session (R128, R131, R190). -/
theorem exec_armed_engine (harmed : s.engine.fsm ≠ .disarmed) (hcmd : isEvent i = false) (h : exec i s = .next t) :
    ∃ f k c d, t.engine = { s.engine with fsm := f, bitssent := k, curByte := c, side := d } ∧
      (i ≠ .disarm → k = s.engine.bitssent ∧ c = s.engine.curByte) := by
  cases exec_effect h with
  | arm hd => exact absurd hd harmed
  | configured hd => exact absurd hd harmed
  | tick => simp [isEvent] at hcmd
  | reset => simp [isEvent] at hcmd
  | disarm =>
    rw [State.endSession_spec]
    exact ⟨_, _, _, _, rfl, fun hne => absurd rfl hne⟩
  | push c => exact ⟨_, _, _, _, s.push_engine c, fun _ => ⟨rfl, rfl⟩⟩
  | pull v => exact ⟨_, _, _, _, s.stepCursor_engine, fun _ => ⟨rfl, rfl⟩⟩
  | _ => exact ⟨_, _, _, _, rfl, fun _ => ⟨rfl, rfl⟩⟩

theorem keeps_of_refused (h : exec i s = .next t) (hr : exec i s = .next s.turnedAway) : t.store = s.store ∧ t.crc = s.crc := by
  cases hr.symm.trans h
  exact ⟨rfl, rfl⟩

/-- Of the store a command writes the RAM at most, and `CONSUME` the request: `PUSH` and `PULL` are refused (R95, R96, R190). -/
theorem exec_armed_store (harmed : s.engine.fsm ≠ .disarmed) (hcmd : isEvent i = false) (h : exec i s = .next t) :
    ∃ m r, t.store = { s.store with ram := m, refill := r } ∧ (i ≠ .consume → r = s.store.refill) := by
  cases exec_effect h with
  | arm hd => exact absurd hd harmed
  | tick => simp [isEvent] at hcmd
  | reset => simp [isEvent] at hcmd
  | consume v => exact ⟨_, _, rfl, fun hne => absurd rfl hne⟩
  | push c => exact ⟨_, _, (keeps_of_refused h (exec_push_refused c harmed)).1, fun _ => rfl⟩
  | pull v => exact ⟨_, _, (keeps_of_refused h (exec_pull_refused harmed)).1, fun _ => rfl⟩
  | disarm =>
    rw [State.endSession_spec]
    exact ⟨_, _, rfl, fun _ => rfl⟩
  | _ => exact ⟨_, _, rfl, fun _ => rfl⟩

/-- A command with a guard leaves `crc` alone if its accepted branch does: a refusal does. -/
theorem crc_of_guarded {p : Prop} [Decidable p] {u : State} {v : Word}
    (h : (if p then .next s.refuse else .next (u.rsp v) : Result) = .next t) (hu : u.crc = s.crc) : t.crc = s.crc := by
  split at h <;> cases h
  · rfl
  · exact hu

/-- No command but `CRCRST`, `CRCUPD`, `WRSEED` and `ARM` writes the accumulator or its seed. -/
theorem exec_keeps_crc (hcmd : isEvent i = false) (hrst : i ≠ .crcrst) (hupd : ∀ c, i ≠ .crcupd c)
    (hseed : ∀ v, i ≠ .wrseed v) (harm : i ≠ .arm) (h : exec i s = .next t) : t.crc = s.crc := by
  cases i with
  | crcrst => exact absurd rfl hrst
  | crcupd c => exact absurd rfl (hupd c)
  | wrseed v => exact absurd rfl (hseed v)
  | arm => exact absurd rfl harm
  | tick => simp [isEvent] at hcmd
  | reset => simp [isEvent] at hcmd
  | setsig a c =>
    simp only [exec, execSetsig] at h
    split at h <;> cases h <;> rfl
  | rdsig a =>
    simp only [exec, execRdsig] at h
    split at h <;> cases h <;> rfl
  | bufwr a b c =>
    simp only [exec, execBufwr] at h
    split at h <;> cases h <;> rfl
  | bufrd a b =>
    simp only [exec, execBufrd] at h
    split at h <;> cases h <;> rfl
  | push c => exact crc_of_guarded h (by simp [State.push_spec])
  | pull =>
    simp only [exec, execPull, State.pull_spec] at h
    exact crc_of_guarded h s.stepCursor_crc
  | wrcfg c => exact crc_of_guarded h rfl
  | wrgap g => exact crc_of_guarded h rfl
  | clrerr m => exact crc_of_guarded h rfl
  | disarm =>
    cases h
    rw [State.rsp_crc, State.endSession_spec]
    split <;> rfl
  | _ =>
    cases h
    rfl

/-- While armed, `WRSEED` and `ARM` are refused, and so are `CRCRST` and `CRCUPD` with `CRC_EN` = 1 (R68). -/
theorem exec_armed_keeps_crc (harmed : s.engine.fsm ≠ .disarmed) (hcmd : isEvent i = false)
    (hi : s.engine.cfg.getLsbD 4 = true ∨ ¬ (i = .crcrst ∨ ∃ c, i = .crcupd c)) (h : exec i s = .next t) :
    t.crc = s.crc := by
  by_cases hcrc : i = .crcrst ∨ ∃ c, i = .crcupd c
  · exact (keeps_of_refused h (exec_crcCommand_refused hcrc harmed (hi.resolve_right (not_not.mpr hcrc)))).2
  by_cases hseed : ∃ v, i = .wrseed v
  · obtain ⟨v, rfl⟩ := hseed
    exact (keeps_of_refused h (exec_wrseed_refused v harmed)).2
  by_cases harm : i = .arm
  · subst harm
    exact (keeps_of_refused h (exec_arm_refused harmed)).2
  obtain ⟨hrst, hupd⟩ := not_or.mp hcrc
  exact exec_keeps_crc hcmd hrst (not_exists.mp hupd) (not_exists.mp hseed) harm h

/-- `CRCRST` and `CRCUPD` write the value alone (R107, R108). -/
theorem exec_armed_keeps_seed (harmed : s.engine.fsm ≠ .disarmed) (hcmd : isEvent i = false) (h : exec i s = .next t) :
    t.crc.seed = s.crc.seed := by
  by_cases hcrc : i = .crcrst ∨ ∃ c, i = .crcupd c
  · obtain rfl | ⟨c, rfl⟩ := hcrc
    · simp only [exec, execCrcrst] at h
      split at h <;> cases h <;> rfl
    · simp only [exec, execCrcupd] at h
      split at h <;> cases h <;> rfl
  · exact congrArg Crc.seed (exec_armed_keeps_crc harmed hcmd (.inr hcrc) h)

end

/-- Settles O53: the frames of the engine, of the store and of the accumulator. -/
theorem commandsLeaveEngineFieldsWhileArmed : Obligations.CommandsLeaveEngineFieldsWhileArmed := by
  intro i s t harmed hcmd h
  obtain ⟨f, k, c, d, hengine, hbyte⟩ := exec_armed_engine harmed hcmd h
  obtain ⟨m, r, hstore, hrefill⟩ := exec_armed_store harmed hcmd h
  rw [hengine, hstore]
  exact ⟨rfl, rfl, exec_armed_keeps_seed harmed hcmd h, rfl, rfl, rfl, rfl, rfl, rfl, rfl, rfl, hbyte, hrefill,
    fun hen => exec_armed_keeps_crc harmed hcmd (.inl hen) h,
    fun hrst hupd => exec_armed_keeps_crc harmed hcmd (.inr (not_or.mpr ⟨hrst, not_exists.mpr hupd⟩)) h⟩

end Sys2Proof.Machine
end

section
/-! The refill deadlines: a session from the tick that posts a request to the last access that may find the buffer unfilled (R186). -/

namespace Sys2Proof.Machine

/-! ### A session since a post -/

/-- `t` is a session that was at index 0 of buffer `b` in `s`, with `m` data bits moved since, and the phase that follows `n` ticks from
a low-phase one; until the cursor wraps the request and the flags are those of `s`. -/
structure MovedOn (s : State) (b : BufId) (n m : Nat) (t : State) : Prop where
  fsm : t.engine.fsm = .xfer
  ph : t.engine.ph = decide (n % 2 = 1)
  bitssent : t.engine.bitssent = BitVec.ofNat 3 m
  cursor : CursorAfter (256 * b.index + m / 8) t
  request : m / 8 < 256 → t.store.refill = s.store.refill ∧ t.flags = s.flags

/-- Index 0 of a buffer is where the accesses to the buffers before it lead. -/
theorem CursorAfter.bufferStart {s : State} {b : BufId} (hcur : s.store.cur = 0#8) (hsel : s.store.sel = b) :
    CursorAfter (256 * b.index) s := by
  subst hsel
  cases hb : s.store.sel <;> exact ⟨hcur, hb⟩

/-- A session right after the tick that posted a request: that tick counts as the first, because the next one is high-phase. -/
theorem MovedOn.posted {s : State} {b : BufId} (hfsm : s.engine.fsm = .xfer) (hph : s.engine.ph = true)
    (hbits : s.engine.bitssent = 0#3) (hcur : s.store.cur = 0#8) (hsel : s.store.sel = b) : MovedOn s b 1 0 s :=
  ⟨hfsm, hph, hbits, .bufferStart hcur hsel, fun _ => ⟨rfl, rfl⟩⟩

section
variable {s t : State} {b : BufId} {n m : Nat}

theorem MovedOn.tick_high (h : MovedOn s b n m t) (hn : n % 2 = 1) : MovedOn s b (n + 1) m t.tick := by
  have hph : t.engine.ph = true := by rw [h.ph, hn]; rfl
  have hnext : (n + 1) % 2 = 0 := by omega
  rw [State.tick_xfer_high h.fsm hph]
  exact ⟨h.fsm, by simp [hnext], h.bitssent, ⟨h.cursor.cur, h.cursor.sel⟩, h.request⟩

/-- A low-phase tick moves a bit; the eighth bit of a byte makes an access, and only the access at index 255 posts a request. -/
theorem MovedOn.tick_low (h : MovedOn s b n m t) (hn : n % 2 = 0) : MovedOn s b (n + 1) (m + 1) t.tick := by
  have hmoved := State.tick_xfer_low h.fsm (by simp [h.ph, hn])
  have hlast : t.engine.bitssent = 7#3 ↔ m % 8 = 7 := by rw [h.bitssent, ofNat_eq_seven_iff]
  have hph : t.tick.engine.ph = decide ((n + 1) % 2 = 1) := by simp [hmoved.ph, show (n + 1) % 2 = 1 by omega]
  have hbitssent : t.tick.engine.bitssent = BitVec.ofNat 3 (m + 1) := by rw [hmoved.bitssent, h.bitssent, BitVec.ofNat_add]
  have hport := hmoved.port
  split at hport
  next hbits =>
    have hbyte : (m + 1) / 8 = m / 8 + 1 := by have := hlast.mp hbits; omega
    obtain ⟨⟨ram, hstore⟩, hflags⟩ := hport
    have hcursor := h.cursor.stepCursor
    refine ⟨hmoved.fsm, hph, hbitssent, ?_, ?_⟩
    · rw [hbyte, ← Nat.add_assoc]
      exact ⟨by rw [hstore]; exact hcursor.cur, by rw [hstore]; exact hcursor.sel⟩
    · intro hfull
      have hinside : t.store.cur ≠ 255#8 := by rw [Ne, h.cursor.cur_eq_last_iff]; omega
      rw [hstore, hflags, State.stepCursor, if_neg hinside]
      exact h.request (by omega)
  next hbits =>
    have hbyte : (m + 1) / 8 = m / 8 := by have := hlast.not.mp hbits; omega
    obtain ⟨hstore, hflags⟩ := hport
    refine ⟨hmoved.fsm, hph, hbitssent, ?_, ?_⟩
    · rw [hbyte]
      exact ⟨by rw [hstore, h.cursor.cur], by rw [hstore, h.cursor.sel]⟩
    · rw [hbyte, hstore, hflags]
      exact h.request

theorem MovedOn.iterate_tick (h : MovedOn s b 1 0 s) (k : Nat) : MovedOn s b (1 + k) (k / 2) (State.tick^[k] s) := by
  have hbits : bitsMoved 1 (1 + k) = k / 2 := by unfold bitsMoved; omega
  rw [← hbits]
  exact iterate_tick_keeps h (fun _ _ _ hn ht => ht.tick_low hn) (fun _ _ _ hn ht => ht.tick_high hn) k

end

/-! ### The next access -/

/-- The next tick moves the last bit of a byte, with the cursor on byte `i` of buffer `A`: it accesses that byte (R123). -/
def State.TouchesNext (t : State) (A : BufId) (i : Nat) : Prop :=
  t.engine.ph = false ∧ t.engine.bitssent = 7#3 ∧ t.store.sel = A ∧ t.store.cur.toNat = i

theorem CursorAfter.sel_iff {t : State} {A : BufId} {k : Nat} (h : CursorAfter (256 * A.other.index + k) t) :
    t.store.sel = A ↔ k / 256 % 2 = 1 := by
  rw [h.sel, requestedBuffer]
  cases A <;> simp [BufId.other, BufId.index] <;> omega

/-- Up to the deadline of `A[i]` there is no other access to that byte than the one at the deadline. -/
theorem MovedOn.touchesNext_iff {s t : State} {A : BufId} {n i : Nat} (h : MovedOn s A.other (1 + n) (n / 2) t) (hi : i < 256)
    (hn : n < 16 * (257 + i)) : t.TouchesNext A i ↔ n + 1 = 16 * (257 + i) := by
  have hph : t.engine.ph = false ↔ n % 2 = 1 := by
    rw [h.ph, decide_eq_false_iff_not]
    omega
  have hbits : t.engine.bitssent = 7#3 ↔ n / 2 % 8 = 7 := by rw [h.bitssent, ofNat_eq_seven_iff]
  have hcur : t.store.cur.toNat = n / 2 / 8 % 256 := by
    rw [h.cursor.cur, BitVec.toNat_ofNat]
    omega
  rw [State.TouchesNext, hph, hbits, h.cursor.sel_iff, hcur]
  omega

/-! ### The next request -/

theorem requestedBuffer_index_succ (b : BufId) : requestedBuffer (b.index + 1) = b := by cases b <;> rfl

/-- The access at index 255 of the buffer the session was in posts the request for it, whatever request it finds (R92). -/
theorem MovedOn.tick_wrap {s t : State} {b : BufId} (h : MovedOn s b 4096 2047 t) :
    t.tick.store.refill = some b ∧ t.tick.flags.underrun = (s.flags.underrun || s.store.refill.isSome) := by
  have hport := (State.tick_xfer_low h.fsm h.ph).port
  have hbits : t.engine.bitssent = 7#3 := h.bitssent
  rw [if_pos hbits] at hport
  obtain ⟨⟨ram, hstore⟩, hflags⟩ := hport
  obtain ⟨hrefill, hsame⟩ := h.request (by decide)
  have hwrap : (256 * b.index + 2047 / 8 + 1) % 256 = 0 := by omega
  have hnext : (256 * b.index + 2047 / 8 + 1) / 256 = b.index + 1 := by omega
  constructor
  · rw [hstore]
    refine h.cursor.stepCursor_refill.trans ?_
    rw [if_pos hwrap, hnext, requestedBuffer_index_succ]
  · rw [hflags, h.cursor.stepCursor_underrun, hrefill, hsame, decide_eq_true hwrap, Bool.true_and]

/-- Settles O45: the accesses since the post are one per 16 ticks, and the 256th wraps the cursor. -/
theorem refillDeadlines : Obligations.RefillDeadlines := by
  intro s A hfsm hph hbits hcur hsel
  have hticks := (MovedOn.posted hfsm hph hbits hcur hsel).iterate_tick
  refine ⟨fun i hi => ⟨?touch, ?earlier⟩, ?pending, ?request⟩
  case touch =>
    have hat := hticks (16 * (257 + i) - 1)
    exact ⟨_, runTicks_eq_iterate _ _, hat.fsm, (hat.touchesNext_iff hi (by omega)).mpr (by omega)⟩
  case earlier =>
    exact fun n hn => ⟨_, runTicks_eq_iterate _ _, ((hticks n).touchesNext_iff hi (by omega)).not.mpr (by omega)⟩
  case pending =>
    obtain ⟨hrefill, hflags⟩ := (hticks 4095).request (by decide)
    exact ⟨_, runTicks_eq_iterate _ _, hrefill, congrArg Flags.underrun hflags⟩
  case request =>
    refine ⟨_, runTicks_eq_iterate _ _, ?_⟩
    rw [Function.iterate_succ_apply' State.tick 4095 s]
    exact (hticks 4095).tick_wrap

end Sys2Proof.Machine
end

section
/-! `RESET`: what every register and every view holds after it, that the RAM outlives it, and the invariants of the state a run starts
from (R180, R181). -/

namespace Sys2Proof.Machine

theorem exec_reset (s : State) : exec .reset s = .next s.resetBlock := rfl

/-! ### The state after `RESET` -/

theorem State.resetBlock_fsm (s : State) : s.resetBlock.engine.fsm = .disarmed := rfl

theorem State.resetBlock_ram (s : State) : s.resetBlock.store.ram = s.store.ram := rfl

/-- A buffer byte outlives `RESET` (R181). -/
theorem State.resetBlock_bufByte (s : State) (b : BufId) (i : BitVec 8) : s.resetBlock.bufByte b i = s.bufByte b i := rfl

/-! A view shows registers only, so after `RESET` it is that of the reset state. -/

theorem State.resetBlock_statusWord (s : State) : s.resetBlock.statusWord = 0#32 :=
  calc s.resetBlock.statusWord
    _ = State.reset.statusWord := rfl
    _ = 0#32 := by decide

theorem State.resetBlock_sigsWord (s : State) : s.resetBlock.sigsWord = 0#32 :=
  calc s.resetBlock.sigsWord
    _ = State.reset.sigsWord := rfl
    _ = 0#32 := by decide

/-- Of the configuration only `EMIT_MSB` is 1 after `RESET` (R23, R180). -/
theorem State.resetBlock_cfgWord (s : State) : s.resetBlock.cfgWord = 2#32 :=
  calc s.resetBlock.cfgWord
    _ = State.reset.cfgWord := rfl
    _ = 2#32 := by decide

/-- The reset state is a fixed point of `RESET`, pins included (log 5, log 8). -/
theorem State.resetBlock_reset : State.reset.resetBlock = State.reset := rfl

theorem State.setBufByte_bufByte (s : State) (b : BufId) (i : BitVec 8) (v : Byte) : (s.setBufByte b i v).bufByte b i = v :=
  Memory.read_write_same _ _ v

/-! ### The statements -/

/-- Settles O26: `RESET` leaves the RAM as the write left it, and the RAM of the reset state lists no byte. -/
theorem ramSurvivesReset : Obligations.RamSurvivesReset := by
  refine ⟨fun s a b c ha => ?kept, fun a b ha => ?powerUp⟩
  case kept =>
    obtain ⟨d, hd⟩ := BufId.exists_index_eq ha
    refine ⟨_, _, exec_bufwr b c hd, exec_reset _, ?_, fun x => by rw [State.resetBlock_ram]⟩
    have hread : (((s.setBufByte d b c).answered 0#32).resetBlock).bufByte d b = c := s.setBufByte_bufByte d b c
    rw [exec_bufrd b hd, hread]
  case powerUp =>
    obtain ⟨d, hd⟩ := BufId.exists_index_eq ha
    rw [hd]
    exact exec_bufrd b hd

/-- Settles O51: the store has no request, and a disarmed engine with nothing in flight meets the rest. -/
theorem resetStateMeetsInvariants : Obligations.ResetStateMeetsInvariants :=
  ⟨(exec_reset _).trans (congrArg Host.Outcome.next State.resetBlock_reset), rfl, rfl, rfl, reset_ram_wf,
    requestNamesVacated_of_none rfl, countersAgree_of_disarmed rfl rfl rfl, captureClean_of_disarmed rfl⟩

/-- Settles O57: each read returns what its register holds after `RESET`, and the ports take the reset first. -/
theorem resetRestoresEveryRegister : Obligations.ResetRestoresEveryRegister := by
  refine ⟨fun s => ⟨s.resetBlock, exec_reset s, rfl, ?tick, ?rdstatus, ?rdsigs, ?rdcfg, rfl, rfl, rfl, rfl, rfl, ?consume⟩,
    fun s tick cmd rest h => step_reset h rfl⟩
  case tick => rw [exec_tick, State.tick_disarmed s.resetBlock_fsm]
  case rdstatus => rw [← s.resetBlock_statusWord]; rfl
  case rdsigs => rw [← s.resetBlock_sigsWord]; rfl
  case rdcfg => rw [← s.resetBlock_cfgWord]; rfl
  case consume => rw [exec_consume]; rfl

end Sys2Proof.Machine
end
